-- ==== Sys2Proof/Word.lean ====
section
/-! DEFINITION. The word types of the FBC: a byte, the 72-bit command word and the 32-bit response (20_memory.md R56). -/

namespace Sys2Proof

/-- Eight bits: a glyph row, a panel byte, one byte of a serialised word. -/
abbrev Byte := BitVec 8

/-- The command word `CW` (R70, R71). -/
abbrev CmdWord := BitVec 72

/-- The response `RSP` (R86). -/
abbrev Rsp := BitVec 32

end Sys2Proof
end

