-- ==== Sys2Proof/Syntax.lean ====
section
/-! DEFINITION. The syntax: the glyph operand, the nine commands, and the host-side assembler's lines. -/

namespace Sys2Proof

/-- A glyph as APPEND carries it: the 4-bit width field and the eight rows, row 0 the top (R74, R100).
The width is whatever the field holds; `Glyph.valid` is R101's check. -/
structure Glyph where
  width : BitVec 4
  rows  : Vector Byte 8
deriving DecidableEq, Repr

/-- The commands, one constructor per row of the opcode table (R72). -/
inductive Instr where
  | clear
  | append (g : Glyph)
  | setalign (code : BitVec 2)
  | getalign
  | panelrow (r : Fin 8) (p : BitVec 16)
  | render
  | getcursor
  | getpcount
  | getstatus
deriving DecidableEq, Repr

/-- The twelve characters that have a glyph (R105, R107). -/
inductive GlyphChar where
  | digit (d : Fin 10)
  | colon
  | fullStop
deriving DecidableEq, Repr

/-- SETALIGN's operand in assembly: a name, or `#n` (R88). -/
inductive AlignArg where
  | left
  | center
  | right
  | raw (n : Nat)
deriving DecidableEq, Repr

/-- One line of assembly, its operands as written, in range or not (R88, R89). -/
inductive AsmLine where
  | clear
  | append (w : Nat) (rows : List Nat)
  | setalign (a : AlignArg)
  | getalign
  | panelrow (p r : Nat)
  | render
  | getcursor
  | getpcount
  | getstatus
  | cw (n : Nat)
  | putc (c : Char)
  | showText (cs : List Char)
deriving DecidableEq, Repr

end Sys2Proof
end

