-- ==== Sys2Proof/Config.lean ====
section
/-! DEFINITION. What one built FBC system fixes (R8, R11, R36) and the free values the spec leaves open.
A constant without a body has no value that a proof could use: a claim holds whatever it is. -/

namespace Sys2Proof

/-- The choice behind `pmax` (R8, D13, log 8). -/
opaque Config.pmaxChoice : Nat

/-- `PMAX`, the largest panel count: any number from 1 to 65536, each one possible (R8, D13, log 8). -/
def Config.pmax : Nat := Config.pmaxChoice % 65536 + 1

/-- What `RP` holds after a RENDER: unspecified (R32, I16, log 3). -/
opaque Config.freeRp : Nat → BitVec 17

/-- What `RR` holds after a RENDER: unspecified (R32, I16, log 3). -/
opaque Config.freeRr : Nat → Fin 8

/-- `zext_24` of a value that does not fit 24 bits: not defined (R13, log 9). -/
opaque Config.zextUndefined : Nat → BitVec 24

/-- `W - CURSOR` of a `CURSOR` above `W`: not defined (R15, R143, log 10). -/
opaque Config.leftoverUndefined : Nat → Nat → Nat

/-- The glyph table's widths where R105 gives none (D23, log 18). -/
opaque Config.romWidthChoice : GlyphChar → Fin 8

/-- The glyph table's rows where R105 gives none (D23, log 18). -/
opaque Config.romRowChoice : GlyphChar → Fin 8 → Byte

/-- Which physical end of the chain column 0 lies at (R11, D22). -/
inductive EdgeMap where
  | columnZeroLeft
  | columnZeroRight
deriving DecidableEq, Repr, Inhabited

/-- `EDGE_MAP`: open, and no rule reads it (R53, D22, log 19). -/
opaque Config.edgeMap : EdgeMap

end Sys2Proof
end

