-- ==== Sys2Proof/WellFormed.lean ====
section
/-! DEFINITION. Which operands are legal by value (R81, R101), and which the assembler accepts (R88, R89). -/

namespace Sys2Proof

/-- R101: a glyph is valid when its width is 1 to 8. -/
def Glyph.valid (g : Glyph) : Bool := 1 ≤ g.width.toNat && g.width.toNat ≤ 8

/-- A command whose operand values are legal (R81): the other ones are encodable, and are rejected when performed. -/
def Instr.wellFormed : Instr → Bool
  | .append g => g.valid
  | .setalign code => code != 3#2
  | .clear => true
  | .getalign => true
  | .panelrow _ _ => true
  | .render => true
  | .getcursor => true
  | .getpcount => true
  | .getstatus => true

/-- The glyph character a written character names: `'0'` to `'9'`, `':'`, `'.'`, no other (R89, R107). -/
def GlyphChar.ofChar (c : Char) : Option GlyphChar :=
  if c = ':' then some .colon
  else if c = '.' then some .fullStop
  else if h : 48 ≤ c.toNat ∧ c.toNat < 58 then some (.digit ⟨c.toNat - 48, by omega⟩)
  else none

/-- `#n` has n in 0..3 (R88). -/
def AlignArg.wellFormed : AlignArg → Bool
  | .raw n => n < 4
  | .left => true
  | .center => true
  | .right => true

/-- The operand ranges of R88 and the alphabet of R89: outside them a line is an assembler error. -/
def AsmLine.wellFormed : AsmLine → Bool
  | .append w rows => w < 16 && rows.length == 8 && rows.all (fun b => b < 256)
  | .setalign a => a.wellFormed
  | .panelrow p r => p < 65536 && r < 8
  | .cw n => n < 2 ^ 72
  | .putc c => (GlyphChar.ofChar c).isSome
  | .showText cs => cs.all (fun c => (GlyphChar.ofChar c).isSome)
  | .clear => true
  | .getalign => true
  | .render => true
  | .getcursor => true
  | .getpcount => true
  | .getstatus => true

end Sys2Proof
end

