-- ==== Sys2Proof/Decode.lean ====
section
/-! DEFINITION. Decoding, total on 72-bit words and on bytes (R83, R85), and the encoder (R73 to R77, R90). -/

namespace Sys2Proof

/-- `OP = CW[3:0]` (R71). -/
def opField (cw : CmdWord) : BitVec 4 := cw.extractLsb' 0 4

/-- `A = CW[7:4]` (R71). -/
def argField (cw : CmdWord) : BitVec 4 := cw.extractLsb' 4 4

/-- `D = CW[71:8]` (R71). -/
def payload (cw : CmdWord) : BitVec 64 := cw.extractLsb' 8 64

/-- `D` byte `k`, `D[8k+7:8k]` (R71). -/
def payloadByte (d : BitVec 64) (k : Fin 8) : Byte := d.extractLsb' (8 * k.val) 8

/-- Sub-format N: `A` and `D` are reserved-zero (R73, R79). -/
def decodeN (cw : CmdWord) (i : Instr) : Option Instr :=
  if argField cw = 0 ∧ payload cw = 0 then some i else none

/-- Sub-format G (R74): no reserved bit. -/
def decodeG (cw : CmdWord) : Option Instr :=
  some (.append { width := argField cw, rows := Vector.ofFn (payloadByte (payload cw)) })

/-- Sub-format S (R75): `A[3:2]` and `D` are reserved-zero. -/
def decodeS (cw : CmdWord) : Option Instr :=
  if (argField cw).extractLsb' 2 2 = 0 ∧ payload cw = 0 then
    some (.setalign ((argField cw).extractLsb' 0 2))
  else none

/-- Sub-format R (R76): `A[3]` and `D[63:16]` are reserved-zero. -/
def decodeR (cw : CmdWord) : Option Instr :=
  if (argField cw).extractLsb' 3 1 = 0 ∧ (payload cw).extractLsb' 16 48 = 0 then
    some (.panelrow ((argField cw).extractLsb' 0 3).toFin ((payload cw).extractLsb' 0 16))
  else none

/-- R83's decoder; `none` is its `Illegal`. -/
def decode (cw : CmdWord) : Option Instr :=
  match opField cw with
  | 0x1#4 => decodeN cw .clear
  | 0x2#4 => decodeG cw
  | 0x3#4 => decodeS cw
  | 0x4#4 => decodeN cw .getalign
  | 0x5#4 => decodeR cw
  | 0x6#4 => decodeN cw .render
  | 0x7#4 => decodeN cw .getcursor
  | 0x8#4 => decodeN cw .getpcount
  | 0x9#4 => decodeN cw .getstatus
  | _ => none

/-- A command word from its three fields (R71). -/
def ofFields (op a : BitVec 4) (d : BitVec 64) : CmdWord := d ++ a ++ op

/-- The opcode of a command (R72). -/
def Instr.opcode : Instr → BitVec 4
  | .clear => 0x1
  | .append _ => 0x2
  | .setalign _ => 0x3
  | .getalign => 0x4
  | .panelrow _ _ => 0x5
  | .render => 0x6
  | .getcursor => 0x7
  | .getpcount => 0x8
  | .getstatus => 0x9

/-- The argument field of a command (R73 to R76). -/
def Instr.argument : Instr → BitVec 4
  | .append g => g.width
  | .setalign code => 0#2 ++ code
  | .panelrow r _ => 0#1 ++ BitVec.ofNat 3 r.val
  | .clear => 0
  | .getalign => 0
  | .render => 0
  | .getcursor => 0
  | .getpcount => 0
  | .getstatus => 0

/-- The eight rows as `D`: row `r` is byte `r` (R74). -/
def Glyph.payload (g : Glyph) : BitVec 64 :=
  g.rows[7] ++ g.rows[6] ++ g.rows[5] ++ g.rows[4] ++ g.rows[3] ++ g.rows[2] ++ g.rows[1] ++ g.rows[0]

/-- The payload of a command (R73 to R76). -/
def Instr.payload : Instr → BitVec 64
  | .append g => g.payload
  | .panelrow _ p => 0#48 ++ p
  | .setalign _ => 0
  | .clear => 0
  | .getalign => 0
  | .render => 0
  | .getcursor => 0
  | .getpcount => 0
  | .getstatus => 0

/-- The word of a command (R73 to R76, R90). -/
def encode (i : Instr) : CmdWord := ofFields i.opcode i.argument i.payload

/-- Byte `k` of a command word, `CW[8k+7:8k]` (R55). -/
def wordByte (cw : CmdWord) (k : Nat) : Byte := cw.extractLsb' (8 * k) 8

/-- A command word as its nine bytes, byte 0 first (R55). -/
def bytesOfWord (cw : CmdWord) : List Byte := (List.range 9).map (wordByte cw)

/-- The command word that the next nine bytes carry, and the bytes after it; `none` when fewer than nine are there
(R55, R70: one length). -/
def takeWord : List Byte → Option (CmdWord × List Byte)
  | b0 :: b1 :: b2 :: b3 :: b4 :: b5 :: b6 :: b7 :: b8 :: rest =>
    some (b8 ++ b7 ++ b6 ++ b5 ++ b4 ++ b3 ++ b2 ++ b1 ++ b0, rest)
  | _ => none

/-- Decoding of a byte stream: the next command and the bytes after it. -/
def decodeBytes (bs : List Byte) : Option (Instr × List Byte) :=
  match takeWord bs with
  | some (cw, rest) => (decode cw).map fun i => (i, rest)
  | none => none

/-- Byte `k` of a response, `RSP[8k+7:8k]` (R55). -/
def rspByte (rsp : Rsp) (k : Nat) : Byte := rsp.extractLsb' (8 * k) 8

/-- A response as its four bytes, byte 0 first (R55). -/
def bytesOfRsp (rsp : Rsp) : List Byte := (List.range 4).map (rspByte rsp)

/-- The command word whose low `nbits` bits are those of `w`, every bit above them 0. -/
def tableWord (nbits w : Nat) : CmdWord := BitVec.ofNat 72 (w % 2 ^ nbits)

/-- The instruction the decoder reads from an opcode-table row's word, laid out as its nine bytes (R55). -/
def decodeTableWord (nbits w : Nat) : Option Instr :=
  (decodeBytes (bytesOfWord (tableWord nbits w))).map Prod.fst

end Sys2Proof
end

