-- ==== Sys2Proof/Machine/State.lean ====
section
/-! DEFINITION. The state of an FBC system as plain data (10_state.md), and the state right after reset is asserted. -/

namespace Sys2Proof.Machine

/-- The alignment mode `ALIGN` holds (R24, R77); its code is `Align.code`. Code 3 is never held (R24, log 11). -/
inductive Align where
  | left
  | center
  | right
deriving DecidableEq, Repr

/-- Where the reset sequence stands: nothing sent, or the request that waits for its answer (R262, log 14). -/
inductive ResetStep where
  | start
  | initSent
  | querySent
deriving DecidableEq, Repr

/-- `PHASE` (R31), with the place of the reset sequence in `RESET_SEQ`. -/
inductive Phase where
  | resetSeq (place : ResetStep)
  | idle
  | rendering
deriving DecidableEq, Repr

/-- A request on the driver port (R57); `row` and `panel` are 1-based (R181). -/
inductive DrvReq where
  | init
  | query
  | rowset (row : Nat) (value : Byte) (panel : Nat)
deriving DecidableEq, Repr

/-- An answer of the driver (R57): OK or FAIL, and for QUERY a 32-bit count or FAIL. -/
inductive DrvAns where
  | ok
  | count (n : BitVec 32)
  | fail
deriving DecidableEq, Repr

/-- One turn of one agent (R19, R275, log 5). -/
inductive Turn where
  /-- The FBC moves. -/
  | fbc
  /-- The host offers a command word. -/
  | host (cw : CmdWord)
  /-- The driver answers the request outstanding. -/
  | driver (a : DrvAns)
  /-- The driver answers a request that a reset abandoned (R260, I18). -/
  | lateDriver (a : DrvAns)
  /-- The platform asserts reset (R260). -/
  | platform
deriving DecidableEq, Repr

/-- The FBC never traps (R220), and an unanswered driver is a stuck state, not a fault (R186, R267): no fault exists.
Nobody raises one (log 17). -/
inductive Fault where
deriving DecidableEq, Repr

/-- Why a step has no meaning for an instruction. -/
inductive Refusal where
  /-- An instruction without a meaning, by its mnemonic. Raised by nothing: every command has its meaning. Safe. -/
  | notModelled (mnemonic : String)
deriving DecidableEq, Repr

/-- The state of the FBC (R20), then what stands at its two ports, then the model's own fields. -/
structure State where
  /-- `ROWS[0..7]` (R21). -/
  rows : Vector Nat 8
  /-- `CURSOR` (R23). -/
  cursor : Nat
  /-- `ALIGN` (R24). -/
  align : Align
  /-- `P` (R25). -/
  pcount : Nat
  /-- `STATUS` (R26). -/
  status : BitVec 8
  /-- `PHASE` (R31). -/
  phase : Phase
  /-- `RP` (R32). -/
  rp : Nat
  /-- `RR` (R32). -/
  rr : Fin 8
  /-- The command words offered and not yet accepted, the first one on the port (R271, log 6). -/
  offered : List CmdWord
  /-- The responses sent, oldest first (R276, log 13). -/
  responses : List Rsp
  /-- The driver requests sent, oldest first (R276, log 13). -/
  requests : List DrvReq
  /-- The turns still to come; with none, the FBC moves (log 5). -/
  agenda : List Turn
  /-- The counter at which the next free values are taken (log 3, log 4). -/
  freeIx : Nat
  /-- How many of the host's commands a reset has discarded or abandoned: they are never answered (R260, R276, log 25). -/
  lost : Nat
deriving DecidableEq, Repr

/-- Right after reset is asserted, before the reset sequence runs (R35, R261; logs 1, 2, 4, 5, 13, 25). -/
def State.reset : State :=
  { rows := Vector.replicate 8 0, cursor := 0, align := .center, pcount := 0, status := 0x00,
    phase := .resetSeq .start, rp := 0, rr := 0,
    offered := [], responses := [], requests := [], agenda := [], freeIx := 0, lost := 0 }

/-- What a step or a meaning answers. -/
abbrev Result := Host.Outcome State Fault Refusal

end Sys2Proof.Machine
end

