-- ==== Sys2Proof/Machine/Operands.lean ====
section
/-! DEFINITION. Operand forms: masks, the masked glyph row, alignment codes, zero extension to the DATA field. -/

namespace Sys2Proof.Machine

/-- `mask(n)`, the low `n` bits set (R13). -/
def mask (n : Nat) : Nat := 2 ^ n - 1

/-- `grow(g, r)`: row `r` of the glyph, masked to its width (R102). -/
def grow (g : Glyph) (r : Fin 8) : Nat := g.rows[r].toNat &&& mask g.width.toNat

/-- The mode of an alignment code; code 3 is reserved (R77). -/
def Align.ofCode (code : BitVec 2) : Option Align :=
  match code with
  | 0#2 => some .left
  | 1#2 => some .center
  | 2#2 => some .right
  | 3#2 => none

/-- The code `ALIGN` holds for a mode (R24, R77). -/
def Align.code : Align → BitVec 2
  | .left => 0
  | .center => 1
  | .right => 2

/-- `zext_24(v)`, defined for `v < 2^24` (R13); a free value beyond (log 9). -/
def zext24 (v : Nat) : BitVec 24 :=
  if v < 2 ^ 24 then BitVec.ofNat 24 v else Config.zextUndefined v

end Sys2Proof.Machine
end

