-- ==== Sys2Proof/Machine/Flags.lean ====
section
/-! DEFINITION. The sticky error flags of `STATUS` (R26 to R28). -/

namespace Sys2Proof.Machine

/-- The flags of `STATUS`, the causes of R223. -/
inductive Flag where
  | ill
  | badw
  | ovf
  | range
  | drverr
  | cfgerr
deriving DecidableEq, Repr

/-- The bit of a flag (R26), the cause's code (R223). -/
def Flag.bit : Flag → Nat
  | .ill => 0
  | .badw => 1
  | .ovf => 2
  | .range => 3
  | .drverr => 4
  | .cfgerr => 5

/-- The `STATUS` value with just this flag. -/
def Flag.mask (f : Flag) : BitVec 8 := 1#8 <<< f.bit

/-- Set a flag; one already set stays set, and no other bit changes (R27). -/
def State.setFlag (f : Flag) (s : State) : State := { s with status := s.status ||| f.mask }

/-- Whether a flag is set. -/
def State.hasFlag (f : Flag) (s : State) : Bool := s.status.getLsbD f.bit

/-- `STATUS` as it is read: bits 7:6 are hard-wired to 0 (R28, log 16). -/
def State.statusRead (s : State) : BitVec 8 := s.status &&& 0x3F

end Sys2Proof.Machine
end

