-- ==== Sys2Proof/Machine/Ops.lean ====
section
/-! DEFINITION. The shared operations: the responses, the rejection (the FBC's only error mechanism), the driver requests, the
alignment shift and the slice. -/

namespace Sys2Proof.Machine

/-- A response word: `REJ`, seven zero bits, `DATA` (R86). -/
def Rsp.make (rej : Bool) (data : BitVec 24) : Rsp := BitVec.ofBool rej ++ 0#7 ++ data

/-- `RSP.REJ` (R86). -/
def Rsp.rej (rsp : Rsp) : Bool := rsp.getLsbD 31

/-- `RSP.DATA` (R86). -/
def Rsp.data (rsp : Rsp) : BitVec 24 := rsp.extractLsb' 0 24

/-- Send one response; responses leave in order (R54). -/
def State.sendRsp (rej : Bool) (data : BitVec 24) (s : State) : State :=
  { s with responses := s.responses ++ [Rsp.make rej data] }

/-- `respond(data)`: the command ends with `REJ = 0` (R14). -/
def respond (data : BitVec 24) (s : State) : Result := .next (s.sendRsp false data)

/-- The state after `reject(FLAG)`: the one flag and the response `0x80000000`, nothing else (R14, R221). -/
def State.rejected (f : Flag) (s : State) : State := (s.setFlag f).sendRsp true 0

/-- `reject(FLAG)`: the command counts as completed and the machine goes on (R221). The FBC takes no exception (R220). -/
def reject (f : Flag) (s : State) : Result := .next (s.rejected f)

/-- A word that decodes to `Illegal` (R83, R222). -/
def rejectIllegal (s : State) : Result := reject .ill s

/-- Send one request on the driver port (R57). -/
def State.sendReq (q : DrvReq) (s : State) : State := { s with requests := s.requests ++ [q] }

/-- `W = 8 * P` (R9). -/
def State.totalWidth (s : State) : Nat := 8 * s.pcount

/-- `L = W - CURSOR` (R143), a free value where `CURSOR > W`, which no reachable state has (R126, log 10). -/
def State.leftover (s : State) : Nat :=
  if s.cursor ≤ s.totalWidth then s.totalWidth - s.cursor
  else Config.leftoverUndefined s.totalWidth s.cursor

/-- `shift(ALIGN, CURSOR)` (R144). -/
def State.shift (s : State) : Nat :=
  match s.align with
  | .left => s.leftover
  | .center => s.leftover / 2
  | .right => 0

/-- `aligned(r) = ROWS[r] << shift(ALIGN, CURSOR)` (R144). -/
def State.aligned (s : State) (r : Fin 8) : Nat := s.rows[r] <<< s.shift

/-- `pbyte(p, r) = (aligned(r) >> (8 * p)) AND 0xFF` (R161). -/
def State.pbyte (s : State) (p : Nat) (r : Fin 8) : Byte :=
  BitVec.ofNat 8 ((s.aligned r >>> (8 * p)) &&& 0xFF)

end Sys2Proof.Machine
end

