-- ==== Sys2Proof/Machine/Alignment.lean ====
section
/-! DEFINITION. The alignment family: SETALIGN and GETALIGN (42_align.md). -/

namespace Sys2Proof.Machine

/-- SETALIGN (R141): code 3 is rejected with ILL. -/
def execSetalign (code : BitVec 2) (s : State) : Result :=
  match Align.ofCode code with
  | some a => respond 0 { s with align := a }
  | none => reject .ill s

/-- GETALIGN (R142). -/
def execGetalign (s : State) : Result := respond (zext24 s.align.code.toNat) s

end Sys2Proof.Machine
end

