-- ==== Sys2Proof/Machine/Compose.lean ====
section
/-! DEFINITION. The composition family: CLEAR and APPEND (41_compose.md). -/

namespace Sys2Proof.Machine

/-- CLEAR's effect: every row and the cursor to 0 (R121). -/
def State.cleared (s : State) : State := { s with rows := Vector.replicate 8 0, cursor := 0 }

/-- CLEAR (R121). -/
def execClear (s : State) : Result := respond 0 s.cleared

/-- Merge and advance: each masked row ORed in at `CURSOR`, then `CURSOR` past the glyph (R124). -/
def State.merge (g : Glyph) (s : State) : State :=
  { s with
    rows := Vector.ofFn fun r : Fin 8 => s.rows[r] ||| (grow g r <<< s.cursor)
    cursor := s.cursor + g.width.toNat }

/-- APPEND (R122): the width check (R123), the capacity check (R125), then the merge (R124). -/
def execAppend (g : Glyph) (s : State) : Result :=
  if g.width.toNat = 0 ∨ 8 < g.width.toNat then reject .badw s
  else if s.totalWidth < s.cursor + g.width.toNat then reject .ovf s
  else respond 0 (s.merge g)

end Sys2Proof.Machine
end

