-- ==== Sys2Proof/Machine/Query.lean ====
section
/-! DEFINITION. The observation family: GETCURSOR, GETPCOUNT, GETSTATUS (45_query.md). None changes any state (R200). -/

namespace Sys2Proof.Machine

/-- GETCURSOR (R201). -/
def execGetcursor (s : State) : Result := respond (zext24 s.cursor) s

/-- GETPCOUNT (R202). -/
def execGetpcount (s : State) : Result := respond (zext24 s.pcount) s

/-- GETSTATUS (R204). -/
def execGetstatus (s : State) : Result := respond (zext24 s.statusRead.toNat) s

end Sys2Proof.Machine
end

