-- ==== Sys2Proof/Machine/Render.lean ====
section
/-! DEFINITION. The render family: RENDER and its sequencer (44_render.md). RENDER is accepted in one step, which sends its
first request; each driver answer then is one step (log 21). -/

namespace Sys2Proof.Machine

/-- The request that carries panel `p`'s byte of row `r`, numbered from 1 (R181). -/
def State.rowset (s : State) (p : Nat) (r : Fin 8) : DrvReq := .rowset (r.val + 1) (s.pbyte p r) (p + 1)

/-- Move the render counter to panel `p`, row `r`, and send that byte (R182). -/
def State.sendRow (p : Nat) (r : Fin 8) (s : State) : State :=
  { s with phase := .rendering, rp := p, rr := r }.sendReq (s.rowset p r)

/-- Leave RENDERING; what `RP` and `RR` then hold is unspecified (R182, R32, log 3). -/
def State.leaveRender (s : State) : State :=
  { s with
    phase := .idle
    rp := (Config.freeRp s.freeIx).toNat
    rr := Config.freeRr s.freeIx
    freeIx := s.freeIx + 1 }

/-- The end of a RENDER whose requests were all answered OK (R182). -/
def State.renderDone (s : State) : State := s.leaveRender.sendRsp false 0

/-- The end of a RENDER at a FAIL: DRVERR, no further request, a rejected response (R184). -/
def State.renderAborted (s : State) : State := (s.setFlag .drverr).leaveRender.sendRsp true 0

/-- After an OK: the next row, else the next panel's row 0, else the end (R182, R185). -/
def State.renderNext (s : State) : State :=
  if s.rr ≠ 7 then s.sendRow s.rp (s.rr + 1)
  else if s.rp + 1 < s.pcount then s.sendRow (s.rp + 1) 0
  else s.renderDone

/-- RENDER (R182): with no panel its loops run zero times and it ends at once (R187). -/
def execRender (s : State) : Result :=
  .next (if s.pcount = 0 then s.renderDone else s.sendRow 0 0)

end Sys2Proof.Machine
end

