-- ==== Sys2Proof/Machine/Slice.lean ====
section
/-! DEFINITION. The slicer family: PANELROW (43_slice.md). -/

namespace Sys2Proof.Machine

/-- PANELROW (R162): the range check (R163), then the panel byte of the aligned row (R161). -/
def execPanelrow (r : Fin 8) (p : BitVec 16) (s : State) : Result :=
  if s.pcount ≤ p.toNat then reject .range s
  else respond (zext24 (s.pbyte p.toNat r).toNat) s

end Sys2Proof.Machine
end

