-- ==== Sys2Proof/Machine/Dispatch.lean ====
section
/-! DEFINITION. The meaning of each command: one arm per constructor of Instr. -/

namespace Sys2Proof.Machine

/-- The meaning of a decoded command, in the state in which it has been accepted. -/
def exec (i : Instr) (s : State) : Host.Outcome State Fault Refusal :=
  match i with
  | .clear => Sys2Proof.Machine.execClear s
  | .append g => Sys2Proof.Machine.execAppend g s
  | .setalign code => Sys2Proof.Machine.execSetalign code s
  | .getalign => Sys2Proof.Machine.execGetalign s
  | .panelrow r p => Sys2Proof.Machine.execPanelrow r p s
  | .render => Sys2Proof.Machine.execRender s
  | .getcursor => Sys2Proof.Machine.execGetcursor s
  | .getpcount => Sys2Proof.Machine.execGetpcount s
  | .getstatus => Sys2Proof.Machine.execGetstatus s

end Sys2Proof.Machine
end

