-- ==== Sys2Proof/Machine/ResetSequence.lean ====
section
/-! DEFINITION. Reset and the reset sequence with the panel driver (70_reset_and_hazards.md R260 to R267). -/

namespace Sys2Proof.Machine

/-- How many commands offered have no response yet: those not accepted, and the RENDER in progress (R33, R86). -/
def State.unanswered (s : State) : Nat := s.offered.length + if s.phase = .rendering then 1 else 0

/-- Reset is asserted: every state element to its reset value, words not yet accepted discarded, no response for a command in
progress, and the request outstanding abandoned (R260). What was sent before stays sent (log 13), and the commands still
unanswered are lost (log 25). -/
def State.assertReset (s : State) : State :=
  { State.reset with
    responses := s.responses, requests := s.requests, agenda := s.agenda, freeIx := s.freeIx
    lost := s.lost + s.unanswered }

/-- The first step of the sequence: send INIT (R262). -/
def State.sendInit (s : State) : State := { s with phase := .resetSeq .initSent }.sendReq .init

/-- INIT answered OK: send QUERY (R262). -/
def State.sendQuery (s : State) : State := { s with phase := .resetSeq .querySent }.sendReq .query

/-- The sequence ends with panel count `n` (R266). -/
def State.endReset (n : Nat) (s : State) : State := { s with pcount := n, phase := .idle }

/-- INIT or QUERY answered FAIL (R263). -/
def State.resetFailed (s : State) : State := ((s.setFlag .drverr).setFlag .cfgerr).endReset 0

/-- QUERY answered with a count (R265). -/
def State.latchCount (n : Nat) (s : State) : State :=
  if 1 ≤ n ∧ n ≤ Config.pmax then s.endReset n else (s.setFlag .cfgerr).endReset 0

end Sys2Proof.Machine
end

