-- ==== Sys2Proof/Machine/Agents.lean ====
section
/-! DEFINITION. One turn of each agent (R19): the FBC, the host, the driver, the platform (70_reset_and_hazards.md R275). -/

namespace Sys2Proof.Machine

/-- Decode an accepted word and perform it; `Illegal` is performed as `reject(ILL)` (R83). -/
def perform (cw : CmdWord) (s : State) : Result :=
  match decode cw with
  | some i => exec i s
  | none => rejectIllegal s

/-- The FBC's turn: start the reset sequence, or in IDLE accept the word on the port and perform it (R33, R262). Otherwise it
waits: for the driver without limit (R186, R267), or for a word. -/
def fbcTurn (s : State) : Result :=
  match s.phase with
  | .resetSeq .start => .next s.sendInit
  | .resetSeq .initSent => .next s
  | .resetSeq .querySent => .next s
  | .rendering => .next s
  | .idle =>
    match s.offered with
    | [] => .next s
    | cw :: rest => perform cw { s with offered := rest }

/-- The host offers a word, which waits until it is accepted (R271). -/
def State.hostOffers (cw : CmdWord) (s : State) : State := { s with offered := s.offered ++ [cw] }

/-- The driver answers the request outstanding, and the FBC goes on with it (R182, R262). An answer that no request waits for
changes nothing (R260, log 7). -/
def State.driverAnswers (a : DrvAns) (s : State) : State :=
  match s.phase, a with
  | .resetSeq .initSent, .ok => s.sendQuery
  | .resetSeq .initSent, .fail => s.resetFailed
  | .resetSeq .initSent, .count _ => s
  | .resetSeq .querySent, .count n => s.latchCount n.toNat
  | .resetSeq .querySent, .fail => s.resetFailed
  | .resetSeq .querySent, .ok => s
  | .rendering, .ok => s.renderNext
  | .rendering, .fail => s.renderAborted
  | .rendering, .count _ => s
  | .resetSeq .start, _ => s
  | .idle, _ => s

/-- A turn of one agent. -/
def State.takeTurn (t : Turn) (s : State) : Result :=
  match t with
  | .fbc => fbcTurn s
  | .host cw => .next (s.hostOffers cw)
  | .driver a => .next (s.driverAnswers a)
  | .lateDriver _ => .next s
  | .platform => .next s.assertReset

/-- The turn that comes next, and the turns after it: with an empty agenda the FBC moves (log 5). -/
def State.nextTurn (s : State) : Turn × List Turn :=
  match s.agenda with
  | [] => (.fbc, [])
  | t :: rest => (t, rest)

/-- The FBC in IDLE with `cw` on the port, about to move: what it takes for the next step to run `cw` (log 15). -/
def State.withWord (cw : CmdWord) (s : State) : State :=
  { s with phase := .idle, offered := cw :: s.offered, agenda := .fbc :: s.agenda }

end Sys2Proof.Machine
end

