-- ==== Sys2Proof/Machine/Step.lean ====
section
/-! DEFINITION. The step: the agent whose turn it is moves. -/

namespace Sys2Proof.Machine

/-- One step of the system: the next turn of the agenda, or the FBC's when the agenda is empty (log 5). -/
def step (s : State) : Host.Outcome State Fault Refusal :=
  { s with agenda := s.nextTurn.2 }.takeTurn s.nextTurn.1

/-- `s` with the opcode-table word on the command port, so that the next step accepts and runs it (log 15). -/
def State.withFetchWord (s : State) (nbits w : Nat) : State := s.withWord (tableWord nbits w)

end Sys2Proof.Machine
end

