-- ==== Sys2Proof/Machine/Assembler.lean ====
section
/-! DEFINITION. The host-side glyph table and assembler (40_glyph.md R105 to R107, 30_encoding.md R88 to R90). No FBC state. -/

namespace Sys2Proof.Machine

/-- The width of a table entry: R105's, else free within R101's 1 to 8 (R106, log 18). -/
def romWidth (c : GlyphChar) : BitVec 4 :=
  if c = .colon then 2
  else if c = .fullStop then 1
  else if c = .digit 1 ∨ c = .digit 2 then 5
  else BitVec.ofNat 4 ((Config.romWidthChoice c).val + 1)

/-- A row of a table entry: R105's, else free (log 18). -/
def romRow (c : GlyphChar) (r : Fin 8) : Byte :=
  if c = .colon ∧ r = 2 then 0b00000001
  else if c = .fullStop ∧ r = 6 then 0b00000001
  else Config.romRowChoice c r

/-- `GLYPH_ROM` (R105). -/
def glyphRom (c : GlyphChar) : Glyph := { width := romWidth c, rows := Vector.ofFn (romRow c) }

/-- The commands of `PUTC` for a written character; an unsupported one is an error (R89). -/
def putChar (c : Char) : Option Instr := (GlyphChar.ofChar c).map fun g => .append (glyphRom g)

/-- `CLEAR`, a `PUTC` for each character in string order, `RENDER` (R89). -/
def showChars (cs : List Char) : Option (List Instr) :=
  (cs.mapM putChar).map fun puts => .clear :: puts ++ [.render]

/-- The glyph an APPEND line writes out (R88). -/
def asmGlyph (w : Nat) (rows : List Nat) : Glyph :=
  { width := BitVec.ofNat 4 w, rows := Vector.ofFn fun r : Fin 8 => BitVec.ofNat 8 (rows.getD r.val 0) }

/-- The code SETALIGN's operand stands for (R88, R77). -/
def AlignArg.code : AlignArg → BitVec 2
  | .left => 0
  | .center => 1
  | .right => 2
  | .raw n => BitVec.ofNat 2 n

/-- The words of a line whose operands are in range; `none` is an assembler error (R88, R89). -/
def assemble (l : AsmLine) : Option (List CmdWord) :=
  if l.wellFormed then
    match l with
    | .clear => some [encode .clear]
    | .append w rows => some [encode (.append (asmGlyph w rows))]
    | .setalign a => some [encode (.setalign (AlignArg.code a))]
    | .getalign => some [encode .getalign]
    | .panelrow p r => some [encode (.panelrow (Fin.ofNat 8 r) (BitVec.ofNat 16 p))]
    | .render => some [encode .render]
    | .getcursor => some [encode .getcursor]
    | .getpcount => some [encode .getpcount]
    | .getstatus => some [encode .getstatus]
    | .cw n => some [BitVec.ofNat 72 n]
    | .putc c => (putChar c).map fun i => [encode i]
    | .showText cs => (showChars cs).map fun is => is.map encode
  else none

/-! Reading a line of text (R88; what it leaves open: log 20). -/

/-- The value of a digit, at most 15. -/
def digitValue (c : Char) : Option Nat :=
  if 48 ≤ c.toNat ∧ c.toNat < 58 then some (c.toNat - 48)
  else if 97 ≤ c.toNat ∧ c.toNat < 103 then some (c.toNat - 87)
  else if 65 ≤ c.toNat ∧ c.toNat < 71 then some (c.toNat - 55)
  else none

/-- Digits in a base, most significant first. -/
def readDigits (base : Nat) : Nat → List Char → Option Nat
  | acc, [] => some acc
  | acc, c :: cs =>
    match digitValue c with
    | some d => if d < base then readDigits base (acc * base + d) cs else none
    | none => none

/-- A number: `0x` hexadecimal, `0b` binary, else decimal (R88). -/
def readNumber : List Char → Option Nat
  | '0' :: 'x' :: c :: cs => readDigits 16 0 (c :: cs)
  | '0' :: 'b' :: c :: cs => readDigits 2 0 (c :: cs)
  | c :: cs => readDigits 10 0 (c :: cs)
  | [] => none

/-- A space or a tab. -/
def isBlank (c : Char) : Bool := c == ' ' || c == '\t'

/-- Without the blanks at both ends. -/
def trim (cs : List Char) : List Char := ((cs.dropWhile isBlank).reverse.dropWhile isBlank).reverse

/-- A letter's capital (R88: mnemonics in either case). -/
def upper (c : Char) : Char := if 97 ≤ c.toNat ∧ c.toNat < 123 then Char.ofNat (c.toNat - 32) else c

/-- The operands between commas, trimmed. -/
def splitCommas : List Char → List (List Char)
  | [] => [[]]
  | ',' :: cs => [] :: splitCommas cs
  | c :: cs =>
    match splitCommas cs with
    | [] => [[c]]
    | op :: ops => (c :: op) :: ops

/-- The operands of a line as numbers. -/
def readNumbers (cs : List Char) : Option (List Nat) := ((splitCommas cs).map trim).mapM readNumber

/-- SETALIGN's operand: a name or `#n` (R88). -/
def readAlign (cs : List Char) : Option AlignArg :=
  match cs with
  | '#' :: ds => (readNumber ds).map .raw
  | _ =>
    if cs.map upper = ['L', 'E', 'F', 'T'] then some .left
    else if cs.map upper = ['C', 'E', 'N', 'T', 'E', 'R'] then some .center
    else if cs.map upper = ['R', 'I', 'G', 'H', 'T'] then some .right
    else none

/-- A line with a given mnemonic (in capitals) and operand text; `none` is an assembler error (R88, R89). -/
def readLine (mnemonic operands : List Char) : Option AsmLine :=
  let plain (l : AsmLine) : Option AsmLine := if operands = [] then some l else none
  if mnemonic = ['C', 'L', 'E', 'A', 'R'] then plain .clear
  else if mnemonic = ['A', 'P', 'P', 'E', 'N', 'D'] then
    match readNumbers operands with
    | some (w :: rows) => some (.append w rows)
    | _ => none
  else if mnemonic = ['S', 'E', 'T', 'A', 'L', 'I', 'G', 'N'] then (readAlign operands).map .setalign
  else if mnemonic = ['G', 'E', 'T', 'A', 'L', 'I', 'G', 'N'] then plain .getalign
  else if mnemonic = ['P', 'A', 'N', 'E', 'L', 'R', 'O', 'W'] then
    match readNumbers operands with
    | some [p, r] => some (.panelrow p r)
    | _ => none
  else if mnemonic = ['R', 'E', 'N', 'D', 'E', 'R'] then plain .render
  else if mnemonic = ['G', 'E', 'T', 'C', 'U', 'R', 'S', 'O', 'R'] then plain .getcursor
  else if mnemonic = ['G', 'E', 'T', 'P', 'C', 'O', 'U', 'N', 'T'] then plain .getpcount
  else if mnemonic = ['G', 'E', 'T', 'S', 'T', 'A', 'T', 'U', 'S'] then plain .getstatus
  else if mnemonic = ['.', 'C', 'W'] then
    match operands with
    | '0' :: 'x' :: ds => if ds.length = 18 then (readDigits 16 0 ds).map .cw else none
    | _ => none
  else if mnemonic = ['P', 'U', 'T', 'C'] then
    match operands with
    | ['\'', c, '\''] => some (.putc c)
    | _ => none
  else if mnemonic = ['S', 'H', 'O', 'W'] then
    match operands with
    | '"' :: cs => if cs.getLast? = some '"' then some (.showText cs.dropLast) else none
    | _ => none
  else none

/-- The words of one line of text: nothing for a blank or comment line, `none` for an assembler error (R88). -/
def assembleText (line : List Char) : Option (List CmdWord) :=
  let code := trim (line.takeWhile (· != ';'))
  if code = [] then some []
  else
    match readLine ((code.takeWhile (!isBlank ·)).map upper) (trim (code.dropWhile (!isBlank ·))) with
    | some l => assemble l
    | none => none

end Sys2Proof.Machine
end

