-- ==== Sys2Proof/Safety.lean ====
section
/-! DEFINITION. The terms that claims use: the invariant of reachable states, what commands keep, runs of several steps, the
requests of a RENDER, the end of a run and its observation. -/

namespace Sys2Proof.Machine

/-- What holds in every reachable state (R126, R127, R25, R28, R32, R203, R261). -/
structure State.Inv (s : State) : Prop where
  /-- `CURSOR <= W` (R126). -/
  cursor_le : s.cursor ≤ s.totalWidth
  /-- No bit of a row at or above `CURSOR` (R127). -/
  rows_lt : ∀ r : Fin 8, s.rows[r] < 2 ^ s.cursor
  /-- `P <= PMAX` (R25). -/
  pcount_le : s.pcount ≤ Config.pmax
  /-- `STATUS[7:6]` is 0 (R28). -/
  status_reserved : s.status &&& 0xC0 = 0
  /-- While rendering, `RP` names a panel of the chain (R32, R182). -/
  render_panel : s.phase = .rendering → s.rp < s.pcount
  /-- `RP` fits its 17 bits (R32). -/
  rp_lt : s.rp < 2 ^ 17
  /-- While the reset sequence runs the buffer is empty, the mode CENTER, no flag set (R35, R261). -/
  in_reset : ∀ place, s.phase = .resetSeq place → s.cursor = 0 ∧ s.align = .center ∧ s.status = 0
  /-- Once it has ended, `P = 0` exactly when CFGERR is set (R203, R264). -/
  failed_chain : (∀ place, s.phase ≠ .resetSeq place) → (s.pcount = 0 ↔ s.hasFlag .cfgerr = true)

/-- The buffer, the alignment mode and the panel count are the same. -/
structure State.SameBuffer (s t : State) : Prop where
  rows : t.rows = s.rows
  cursor : t.cursor = s.cursor
  align : t.align = s.align
  pcount : t.pcount = s.pcount

/-- The phase, the words offered, the requests sent and the turns to come are the same. -/
structure State.SamePorts (s t : State) : Prop where
  phase : t.phase = s.phase
  offered : t.offered = s.offered
  requests : t.requests = s.requests
  agenda : t.agenda = s.agenda

/-- `t` is `s` after a rejection with flag `f` (R221): the state as before plus the one flag, and the response `0x80000000`. -/
structure State.RejectedFrom (f : Flag) (s t : State) : Prop where
  buffer : s.SameBuffer t
  ports : s.SamePorts t
  flag_set : t.hasFlag f = true
  other_bits : ∀ k, k ≠ f.bit → t.status.getLsbD k = s.status.getLsbD k
  response : t.responses = s.responses ++ [0x80000000#32]

/-- It is the FBC's turn in IDLE with `cw` on the port: it accepts `cw` (R33), and `s'` is the state the command then runs in. -/
def State.Accepts (s : State) (cw : CmdWord) (s' : State) : Prop :=
  s.phase = .idle ∧
    ∃ rest turns, s.offered = cw :: rest ∧ s.nextTurn = (.fbc, turns) ∧
      s' = { s with offered := rest, agenda := turns }

/-- A word with a reserved opcode, or with a bit set in a reserved-zero field of its format (R78, R79). -/
def IllegalWord (cw : CmdWord) : Prop :=
  let op := cw.toNat % 16
  op = 0 ∨ 10 ≤ op ∨
    (op ∈ [1, 4, 6, 7, 8, 9] ∧ cw.toNat / 16 ≠ 0) ∨
    (op = 3 ∧ (cw.toNat / 64 % 4 ≠ 0 ∨ cw.toNat / 256 ≠ 0)) ∨
    (op = 5 ∧ (cw.toNat / 128 % 2 ≠ 0 ∨ cw.toNat / 16777216 ≠ 0))

/-- `k` steps, as long as each answers a next state. -/
def runSteps : Nat → State → Result
  | 0, s => .next s
  | k + 1, s =>
    match step s with
    | .next t => runSteps k t
    | .fault r => .fault r
    | .refused r => .refused r

/-- The panels and rows of a RENDER of `n` panels, in the order it visits them (R185). -/
def renderOrder (n : Nat) : List (Nat × Fin 8) :=
  (List.range n).flatMap fun p => (List.finRange 8).map fun r => (p, r)

/-- The requests of a whole RENDER from state `s` (R182, R185). -/
def State.renderRequests (s : State) : List DrvReq := (renderOrder s.pcount).map fun x => s.rowset x.1 x.2

/-- The bit `k` of the aligned row `r`: the pixel at aligned column `k` (R53). -/
def State.alignedColumn (s : State) (r : Fin 8) (k : Nat) : Bool := (s.aligned r).testBit k

/-- The glyphs that APPENDs of `gs`, one after the other, accept, by width and capacity alone (R129). -/
def acceptedFrom (width cursor : Nat) : List Glyph → List Glyph
  | [] => []
  | g :: gs =>
    if 1 ≤ g.width.toNat ∧ g.width.toNat ≤ 8 ∧ cursor + g.width.toNat ≤ width then
      g :: acceptedFrom width (cursor + g.width.toNat) gs
    else acceptedFrom width cursor gs

/-- The sum of the widths of some glyphs (R129). -/
def widthSum : List Glyph → Nat
  | [] => 0
  | g :: gs => g.width.toNat + widthSum gs

/-- The sum of the masked rows `r`, each shifted by the widths before it (R128). -/
def rowSum (r : Fin 8) (base : Nat) : List Glyph → Nat
  | [] => 0
  | g :: gs => grow g r * 2 ^ base + rowSum r (base + g.width.toNat) gs

/-- The commands of a list performed one after the other, as long as each answers a next state (R54). -/
def execAll : List Instr → State → Result
  | [], s => .next s
  | i :: is, s =>
    match exec i s with
    | .next t => execAll is t
    | .fault r => .fault r
    | .refused r => .refused r

/-- The word a turn offers. -/
def Turn.word : Turn → Option CmdWord
  | .host cw => some cw
  | .fbc => none
  | .driver _ => none
  | .lateDriver _ => none
  | .platform => none

/-- The words that the host offers in a list of turns, in order: its command list (R276). -/
def hostWords (turns : List Turn) : List CmdWord := turns.filterMap Turn.word

/-- The commands that the host has offered: answered, not answered yet, or lost to a reset. -/
def State.commandCount (s : State) : Nat := s.responses.length + s.unanswered + s.lost

/-- Whether every command of the host's list has been offered, accepted and answered: none is still to come, none is without
its response, and none was lost to a reset (R276, log 25). -/
def State.hostDone (s : State) : Bool := (hostWords s.agenda).isEmpty && s.unanswered == 0 && s.lost == 0

/-- The end of a run (R276): the reset sequence over, every command accepted and answered, and `PHASE = IDLE`. -/
def State.runEnded (s : State) : Bool := s.phase == .idle && s.hostDone

/-- What a run shows at its end (R276). -/
structure Observation where
  responses : List Rsp
  requests : List DrvReq
  rows : Vector Nat 8
  cursor : Nat
  align : Align
  pcount : Nat
  status : BitVec 8
deriving DecidableEq, Repr

/-- The observation of a run that ends in `s` (R276). -/
def State.observe (s : State) : Observation :=
  { responses := s.responses, requests := s.requests, rows := s.rows, cursor := s.cursor, align := s.align,
    pcount := s.pcount, status := s.statusRead }

/-- Two states that differ at most in `RP` and `RR` (R32, I16). -/
def State.sameButCounter (s t : State) : Prop := { s with rp := t.rp, rr := t.rr } = t

end Sys2Proof.Machine
end

