-- ==== Sys2Proof/Certificates/Slice0/Obligations.lean ====
section
/-! DEFINITION. The statements for the provers. In every statement about a step, `s.nextTurn = (t, turns)` says that the next
step is the turn `t`, with the turns `turns` after it; a state `s` accepts a word when it is the FBC's turn in IDLE with the
word on the port. `RP` and `RR` are left out of the frames: outside RENDERING they are unspecified (R32). -/

open Sys2Proof Sys2Proof.Machine

/-! ## Encoding and decoding -/

/-- O1: decoding the word of a command gives that command, for every operand (R83, R84). -/
def Obligations.DecodeOfEncodeIsTheCommand : Prop :=
  ∀ i : Instr, decode (encode i) = some i

/-- O2: a command has one word only: a word that decodes to it is its encoding (R83, R85). -/
def Obligations.EncodeOfDecodeIsTheWord : Prop :=
  ∀ (cw : CmdWord) (i : Instr), decode cw = some i → encode i = cw

/-- O3: a word decodes to a command exactly when it matches the command's row of the opcode table, under the row's mask. -/
def Obligations.DecoderFollowsOpcodeTable : Prop :=
  ∀ cw : CmdWord,
    (decode cw = some .clear ↔ cw &&& 0xFFFFFFFFFFFFFFFFFF#72 = 0x000000000000000001#72) ∧
    ((∃ g, decode cw = some (.append g)) ↔ cw &&& 0x00000000000000000F#72 = 0x000000000000000002#72) ∧
    ((∃ c, decode cw = some (.setalign c)) ↔ cw &&& 0xFFFFFFFFFFFFFFFFCF#72 = 0x000000000000000003#72) ∧
    (decode cw = some .getalign ↔ cw &&& 0xFFFFFFFFFFFFFFFFFF#72 = 0x000000000000000004#72) ∧
    ((∃ r p, decode cw = some (.panelrow r p)) ↔
      cw &&& 0xFFFFFFFFFFFF00008F#72 = 0x000000000000000005#72) ∧
    (decode cw = some .render ↔ cw &&& 0xFFFFFFFFFFFFFFFFFF#72 = 0x000000000000000006#72) ∧
    (decode cw = some .getcursor ↔ cw &&& 0xFFFFFFFFFFFFFFFFFF#72 = 0x000000000000000007#72) ∧
    (decode cw = some .getpcount ↔ cw &&& 0xFFFFFFFFFFFFFFFFFF#72 = 0x000000000000000008#72) ∧
    (decode cw = some .getstatus ↔ cw &&& 0xFFFFFFFFFFFFFFFFFF#72 = 0x000000000000000009#72)

/-- O4: words written out from R90 and 95_test_vectors.md decode to the commands they stand for. -/
def Obligations.WordsWrittenOutDecode : Prop :=
  decode 0x000000000000000001#72 = some .clear ∧
  decode 0x001F08040201110E52#72 =
    some (.append { width := 5, rows := #v[0x0E, 0x11, 0x01, 0x02, 0x04, 0x08, 0x1F, 0x00] }) ∧
  decode 0x000000000000000023#72 = some (.setalign 2#2) ∧
  decode 0x000000000000000004#72 = some .getalign ∧
  decode 0x000000000000000235#72 = some (.panelrow 3 2) ∧
  decode 0x000000000000000006#72 = some .render ∧
  decode 0x000000000000000007#72 = some .getcursor ∧
  decode 0x000000000000000008#72 = some .getpcount ∧
  decode 0x000000000000000009#72 = some .getstatus ∧
  decode 0x000000000000000000#72 = none ∧
  decode 0x000000000000000011#72 = none

/-- O5: a word is carried as nine bytes and a response as four, byte `k` its bits `8k+7:8k`, byte 0 first; nine bytes give
the word back, and glyph row `r` of an APPEND is byte `r + 1` (R55). -/
def Obligations.BytesCarryTheWord : Prop :=
  (∀ (cw : CmdWord) (rest : List Byte), takeWord (bytesOfWord cw ++ rest) = some (cw, rest)) ∧
  (∀ (cw : CmdWord) (k j : Nat), k < 9 → j < 8 →
    (bytesOfWord cw).length = 9 ∧
      ((bytesOfWord cw)[k]?.map fun b => b.getLsbD j) = some (cw.getLsbD (8 * k + j))) ∧
  (∀ (rsp : Rsp) (k j : Nat), k < 4 → j < 8 →
    (bytesOfRsp rsp).length = 4 ∧
      ((bytesOfRsp rsp)[k]?.map fun b => b.getLsbD j) = some (rsp.getLsbD (8 * k + j))) ∧
  (∀ (g : Glyph) (r : Fin 8), (bytesOfWord (encode (.append g)))[r.val + 1]? = some g.rows[r])

/-! ## The assembler and the glyph table -/

/-- O6: the words that the assembler's lines give (R88, R90): the operand-free commands and SETALIGN's names have their canonical
words, `#n` is the raw code, `.cw` the raw word, PANELROW and APPEND have R90's sums; an operand out of range is an error. -/
def Obligations.AssembledWordsAreTheSums : Prop :=
  (assemble .clear = some [0x000000000000000001#72] ∧ assemble .getalign = some [0x000000000000000004#72] ∧
    assemble .render = some [0x000000000000000006#72] ∧ assemble .getcursor = some [0x000000000000000007#72] ∧
    assemble .getpcount = some [0x000000000000000008#72] ∧ assemble .getstatus = some [0x000000000000000009#72]) ∧
  (assemble (.setalign .left) = some [0x000000000000000003#72] ∧
    assemble (.setalign .center) = some [0x000000000000000013#72] ∧
    assemble (.setalign .right) = some [0x000000000000000023#72]) ∧
  (∀ n : Nat, n < 4 → assemble (.setalign (.raw n)) = some [BitVec.ofNat 72 ((n <<< 4) ||| 0x3)]) ∧
  (∀ n : Nat, 4 ≤ n → assemble (.setalign (.raw n)) = none) ∧
  (∀ cw : CmdWord, assemble (.cw cw.toNat) = some [cw]) ∧
  (∀ n : Nat, 2 ^ 72 ≤ n → assemble (.cw n) = none) ∧
  (∀ p r : Nat, p < 65536 → r < 8 →
    assemble (.panelrow p r) = some [BitVec.ofNat 72 ((p <<< 8) ||| (r <<< 4) ||| 0x5)]) ∧
  (∀ p r : Nat, 65536 ≤ p ∨ 8 ≤ r → assemble (.panelrow p r) = none) ∧
  (∀ (w : Nat) (r0 r1 r2 r3 r4 r5 r6 r7 : Nat), w < 16 →
    r0 < 256 → r1 < 256 → r2 < 256 → r3 < 256 → r4 < 256 → r5 < 256 → r6 < 256 → r7 < 256 →
    assemble (.append w [r0, r1, r2, r3, r4, r5, r6, r7]) =
      some [BitVec.ofNat 72 ((r7 <<< 64) ||| (r6 <<< 56) ||| (r5 <<< 48) ||| (r4 <<< 40) ||| (r3 <<< 32) |||
        (r2 <<< 24) ||| (r1 <<< 16) ||| (r0 <<< 8) ||| (w <<< 4) ||| 0x2)]) ∧
  (∀ (w : Nat) (rows : List Nat), 16 ≤ w ∨ rows.length ≠ 8 ∨ (∃ b ∈ rows, 256 ≤ b) →
    assemble (.append w rows) = none)

/-- O7: every entry of the glyph table is a valid glyph, and the entries R105 gives are as it gives them, whatever the free
part of the table holds (R105, R106). -/
def Obligations.GlyphTableIsValid : Prop :=
  (∀ c : GlyphChar, (glyphRom c).valid = true) ∧
  (glyphRom .colon).width = 2 ∧ (glyphRom .colon).rows[2] = 0b00000001 ∧
  (glyphRom .fullStop).width = 1 ∧ (glyphRom .fullStop).rows[6] = 0b00000001 ∧
  (glyphRom (.digit 1)).width = 5 ∧ (glyphRom (.digit 2)).width = 5

/-- O8: the alphabet is `'0'` to `'9'`, `':'` and `'.'`. PUTC is the APPEND of the character's table entry. SHOW is CLEAR, one
APPEND for each character in string order, and RENDER. A character outside the alphabet is an error (R89). -/
def Obligations.PseudoInstructionsExpand : Prop :=
  (∀ c : Char, (GlyphChar.ofChar c).isSome = true ↔
    c ∈ ['0', '1', '2', '3', '4', '5', '6', '7', '8', '9', ':', '.']) ∧
  (∀ (c : Char) (g : GlyphChar), GlyphChar.ofChar c = some g →
    assemble (.putc c) = some [encode (.append (glyphRom g))]) ∧
  (∀ (text : List Char) (cs : List GlyphChar), text.map GlyphChar.ofChar = cs.map some →
    assemble (.showText text) =
      some (encode .clear :: cs.map (fun c => encode (.append (glyphRom c))) ++ [encode .render])) ∧
  (∀ c : Char, GlyphChar.ofChar c = none → assemble (.putc c) = none) ∧
  (∀ text : List Char, (∃ c ∈ text, GlyphChar.ofChar c = none) → assemble (.showText text) = none)

/-! ## Reset and the driver -/

/-- O9: reset leaves an empty buffer, the mode CENTER and no flag, with the reset sequence to run (R261). -/
def Obligations.ResetLeavesAnEmptyBuffer : Prop :=
  (∀ r : Fin 8, State.reset.rows[r] = 0) ∧ State.reset.cursor = 0 ∧ State.reset.align = .center ∧
    State.reset.status = 0x00 ∧ State.reset.phase = .resetSeq .start

/-- O10: reset asserted in any state abandons the command in progress without a response, discards the words not yet accepted,
sets the state to its reset values and starts the reset sequence (R260); the commands so left unanswered are counted as lost
(log 25). That an answer to a request from before the reset changes nothing, whether it comes before INIT is sent or as a late
answer, is R260 in the model's form of answers (log 7): before INIT is sent any answer changes nothing, asked for or not. -/
def Obligations.AssertedResetAbandonsAll : Prop :=
  (∀ (s : State) (turns : List Turn), s.nextTurn = (.platform, turns) →
    ∃ t, step s = .next t ∧
      (∀ r : Fin 8, t.rows[r] = 0) ∧ t.cursor = 0 ∧ t.align = .center ∧ t.status = 0x00 ∧
      t.phase = .resetSeq .start ∧ t.offered = [] ∧ t.responses = s.responses ∧ t.requests = s.requests ∧
      t.agenda = turns ∧ t.lost = s.lost + s.unanswered) ∧
  (∀ (s : State) (a : DrvAns) (turns : List Turn), s.phase = .resetSeq .start → s.nextTurn = (.driver a, turns) →
    step s = .next { s with agenda := turns }) ∧
  (∀ (s : State) (a : DrvAns) (turns : List Turn), s.nextTurn = (.lateDriver a, turns) →
    step s = .next { s with agenda := turns })

/-- O11: the reset sequence sends INIT, waits for its answer, and when that is OK sends QUERY (R262). -/
def Obligations.ResetSendsInitThenQuery : Prop :=
  (∀ (s : State) (turns : List Turn), s.phase = .resetSeq .start → s.nextTurn = (.fbc, turns) →
    ∃ t, step s = .next t ∧ t.requests = s.requests ++ [.init] ∧ t.phase = .resetSeq .initSent ∧
      s.SameBuffer t ∧ t.status = s.status ∧ t.offered = s.offered ∧ t.responses = s.responses ∧ t.agenda = turns) ∧
  (∀ (s : State) (turns : List Turn), s.phase = .resetSeq .initSent → s.nextTurn = (.fbc, turns) →
    step s = .next { s with agenda := turns }) ∧
  (∀ (s : State) (turns : List Turn), s.phase = .resetSeq .initSent → s.nextTurn = (.driver .ok, turns) →
    ∃ t, step s = .next t ∧ t.requests = s.requests ++ [.query] ∧ t.phase = .resetSeq .querySent ∧
      s.SameBuffer t ∧ t.status = s.status ∧ t.offered = s.offered ∧ t.responses = s.responses ∧ t.agenda = turns) ∧
  (∀ (s : State) (turns : List Turn), s.phase = .resetSeq .querySent → s.nextTurn = (.fbc, turns) →
    step s = .next { s with agenda := turns })

/-- O12: INIT or QUERY answered FAIL sets DRVERR and CFGERR and no other flag, sets P to 0, sends no further request and ends
the sequence in IDLE (R263, R266). -/
def Obligations.FailedHandshakeLeavesNoPanels : Prop :=
  ∀ (s : State) (turns : List Turn),
    s.phase = .resetSeq .initSent ∨ s.phase = .resetSeq .querySent → s.nextTurn = (.driver .fail, turns) →
    ∃ t, step s = .next t ∧ t.hasFlag .drverr = true ∧ t.hasFlag .cfgerr = true ∧
      (∀ k, k ≠ 4 → k ≠ 5 → t.status.getLsbD k = s.status.getLsbD k) ∧ t.pcount = 0 ∧ t.phase = .idle ∧
      t.requests = s.requests ∧ t.rows = s.rows ∧ t.cursor = s.cursor ∧ t.align = s.align ∧
      t.offered = s.offered ∧ t.responses = s.responses ∧ t.agenda = turns

/-- O13: QUERY answered with a count latches it when it is 1 to PMAX, with no flag set; a count of 0 or above PMAX sets CFGERR
alone and P to 0. Either way the sequence ends in IDLE (R265, R266). -/
def Obligations.QueryCountIsLatched : Prop :=
  ∀ (s : State) (n : BitVec 32) (turns : List Turn),
    s.phase = .resetSeq .querySent → s.nextTurn = (.driver (.count n), turns) →
    ∃ t, step s = .next t ∧ t.phase = .idle ∧
      (1 ≤ n.toNat ∧ n.toNat ≤ Config.pmax → t.pcount = n.toNat ∧ t.status = s.status) ∧
      (n.toNat = 0 ∨ Config.pmax < n.toNat →
        t.pcount = 0 ∧ t.hasFlag .cfgerr = true ∧ ∀ k, k ≠ 5 → t.status.getLsbD k = s.status.getLsbD k) ∧
      t.requests = s.requests ∧ t.rows = s.rows ∧ t.cursor = s.cursor ∧ t.align = s.align ∧
      t.offered = s.offered ∧ t.responses = s.responses ∧ t.agenda = turns

/-- O14: a driver that never answers leaves the FBC waiting for ever, in the reset sequence (R267) and in a RENDER (R186): any
number of turns of the FBC and the host, and of late answers (log 7), go by with no response, no request, no word accepted and
no change of phase, buffer or flags, nor of the render counter in a RENDER. That waiting is a next state is log 17. -/
def Obligations.UnansweredDriverIsAStuckState : Prop :=
  ∀ (k : Nat) (s : State),
    s.phase = .resetSeq .initSent ∨ s.phase = .resetSeq .querySent ∨ s.phase = .rendering →
    (∀ x ∈ s.agenda, x = .fbc ∨ (∃ cw, x = .host cw) ∨ ∃ a, x = .lateDriver a) →
    ∃ t, runSteps k s = .next t ∧ t.phase = s.phase ∧ t.responses = s.responses ∧ t.requests = s.requests ∧
      s.offered <+: t.offered ∧ s.SameBuffer t ∧ t.status = s.status ∧
      (s.phase = .rendering → t.rp = s.rp ∧ t.rr = s.rr)

/-- O15: while the port is not ready a word offered is neither performed nor rejected, and waits: every step outside IDLE but a
reset keeps the offered words in order, writes no row, cursor or mode, and sets none of the flags ILL, BADW, OVF, RANGE (R271). -/
def Obligations.OfferedWordsWaitWhileNotReady : Prop :=
  ∀ s t : State, s.phase ≠ .idle → s.nextTurn.1 ≠ .platform → step s = .next t →
    s.offered <+: t.offered ∧ t.rows = s.rows ∧ t.cursor = s.cursor ∧ t.align = s.align ∧
      (∀ place, s.phase = .resetSeq place → t.responses = s.responses) ∧
      ∀ k, k < 4 → t.status.getLsbD k = s.status.getLsbD k

/-- O16: the reset sequence ends in IDLE, and from then on, until the next reset, no step changes P (R266). -/
def Obligations.PanelCountIsFixedBetweenResets : Prop :=
  (∀ (s t : State) (place : ResetStep), s.phase = .resetSeq place → (∀ place', t.phase ≠ .resetSeq place') →
    step s = .next t → t.phase = .idle) ∧
  (∀ s t : State, (∀ place, s.phase ≠ .resetSeq place) → s.nextTurn.1 ≠ .platform → step s = .next t →
    t.pcount = s.pcount ∧ ∀ place, t.phase ≠ .resetSeq place)

/-! ## Accepting a command -/

/-- O17: a step in which the FBC accepts a word that decodes to a command is that command's meaning, in the state without the
word and the turn (R33, R83). -/
def Obligations.StepRunsTheDecodedCommand : Prop :=
  ∀ (s s' : State) (cw : CmdWord) (i : Instr), s.Accepts cw s' → decode cw = some i → step s = exec i s'

/-- O18: an accepted word with a reserved opcode, or with a bit set in a reserved field of its format, is rejected with ILL
(R78, R79). -/
def Obligations.IllegalWordsAreRejected : Prop :=
  ∀ (s s' : State) (cw : CmdWord), s.Accepts cw s' → IllegalWord cw →
    ∃ t, step s = .next t ∧ s'.RejectedFrom .ill t

/-- O19: a word raises at most one cause: it leaves STATUS alone, or is rejected with just one of the flags ILL, BADW, OVF, RANGE;
and the checks come in R225's order: decoding, code 3 of SETALIGN, the width before the capacity, the panel range. -/
def Obligations.CommandsRaiseAtMostOneCause : Prop :=
  ∀ (cw : CmdWord) (s : State), ∃ t, perform cw s = .next t ∧
    (t.status = s.status ∨ ∃ f, (f = .ill ∨ f = .badw ∨ f = .ovf ∨ f = .range) ∧ s.RejectedFrom f t) ∧
    (decode cw = none → s.RejectedFrom .ill t) ∧
    (decode cw = some (.setalign 3) → s.RejectedFrom .ill t) ∧
    (∀ g, decode cw = some (.append g) → g.valid = false → s.RejectedFrom .badw t) ∧
    (∀ g, decode cw = some (.append g) → g.valid = true → s.totalWidth < s.cursor + g.width.toNat →
      s.RejectedFrom .ovf t) ∧
    (∀ r p, decode cw = some (.panelrow r p) → s.pcount ≤ p.toNat → s.RejectedFrom .range t)

/-- O20: an accepted word ends with exactly one response in IDLE, or begins a RENDER whose response is still to come; a step in
RENDERING, other than a reset, stays there with no response or ends the RENDER in IDLE with exactly one; no other step sends a
response, and a reset sends none (R86, R62). So at the end of a run as R276 has it, with no command lost to a reset (log 25),
every command of the host's list has been answered by one response. -/
def Obligations.AcceptedWordGetsOneResponse : Prop :=
  (∀ (s s' : State) (cw : CmdWord), s.Accepts cw s' →
    ∃ t, step s = .next t ∧
      ((t.phase = .idle ∧ ∃ rsp, t.responses = s.responses ++ [rsp]) ∨
        (decode cw = some .render ∧ s.pcount ≠ 0 ∧ t.phase = .rendering ∧ t.responses = s.responses))) ∧
  (∀ s t : State, s.phase = .rendering → s.nextTurn.1 ≠ .platform → step s = .next t →
    (t.phase = .rendering ∧ t.responses = s.responses) ∨
      (t.phase = .idle ∧ ∃ rsp, t.responses = s.responses ++ [rsp])) ∧
  (∀ s t : State, s.nextTurn.1 = .platform ∨ (s.phase ≠ .rendering ∧ ∀ cw s', ¬ s.Accepts cw s') → step s = .next t →
    t.responses = s.responses) ∧
  (∀ (turns : List Turn) (k : Nat) (t : State), runSteps k { State.reset with agenda := turns } = .next t →
    t.runEnded = true → t.phase = .idle ∧ t.offered = [] ∧ t.responses.length = (hostWords turns).length)

/-- O21: whatever response a step sends has 0 in bits 30:24, and DATA 0 when REJ is 1 (R86). -/
def Obligations.ResponsesHaveTheFormat : Prop :=
  ∀ s t : State, step s = .next t →
    t.responses = s.responses ∨
      ∃ rsp, t.responses = s.responses ++ [rsp] ∧ rsp.extractLsb' 24 7 = 0 ∧
        (rsp.getLsbD 31 = true → rsp = 0x80000000#32)

/-- O22: every step, from any state, answers a next state. R220 says that the FBC never traps; that no fault and no refusal
exists, and that waiting is a next state too, is the model's choice (log 17). -/
def Obligations.TheMachineNeverTraps : Prop :=
  ∀ s : State, ∃ t, step s = .next t

/-! ## Composition -/

/-- O23: CLEAR zeroes the rows and the cursor, responds 0, and touches nothing else (R121). -/
def Obligations.ClearEmptiesTheBuffer : Prop :=
  (∀ cw, decode cw = some .clear ↔ cw = 0x000000000000000001#72) ∧
  ∀ s : State, ∃ t, exec .clear s = .next t ∧
    (∀ r : Fin 8, t.rows[r] = 0) ∧ t.cursor = 0 ∧ t.align = s.align ∧ t.pcount = s.pcount ∧ t.status = s.status ∧
    s.SamePorts t ∧ t.responses = s.responses ++ [0x00000000#32]

/-- O24: an APPEND of valid width that fits puts bit `i` of each glyph row, for `i` below the width, at column CURSOR + i, keeps
every other bit, and advances CURSOR by the width; nothing else changes (R124, R52). -/
def Obligations.AppendMergesTheGlyph : Prop :=
  ∀ (s : State) (g : Glyph), 1 ≤ g.width.toNat → g.width.toNat ≤ 8 → s.cursor + g.width.toNat ≤ 8 * s.pcount →
    ∃ t, exec (.append g) s = .next t ∧
      (∀ (r : Fin 8) (k : Nat), t.rows[r].testBit k =
        (s.rows[r].testBit k ||
          (decide (s.cursor ≤ k ∧ k < s.cursor + g.width.toNat) && g.rows[r].getLsbD (k - s.cursor)))) ∧
      t.cursor = s.cursor + g.width.toNat ∧ t.align = s.align ∧ t.pcount = s.pcount ∧ t.status = s.status ∧
      s.SamePorts t ∧ t.responses = s.responses ++ [0x00000000#32]

/-- O25: an APPEND whose width is 0 or greater than 8 is rejected with BADW, whether or not it would fit (R123). -/
def Obligations.AppendOfBadWidthIsRejected : Prop :=
  ∀ (s : State) (g : Glyph), g.width.toNat = 0 ∨ 8 < g.width.toNat →
    ∃ t, exec (.append g) s = .next t ∧ s.RejectedFrom .badw t

/-- O26: an APPEND of valid width that does not fit is rejected with OVF and writes nothing, not even the columns that would
fit (R125). -/
def Obligations.AppendPastTheEndIsRejected : Prop :=
  ∀ (s : State) (g : Glyph), 1 ≤ g.width.toNat → g.width.toNat ≤ 8 → 8 * s.pcount < s.cursor + g.width.toNat →
    ∃ t, exec (.append g) s = .next t ∧ s.RejectedFrom .ovf t

/-- O27: an exact fit is accepted and leaves CURSOR = W; then every APPEND of valid width is rejected with OVF, as long as only
commands other than CLEAR are performed (R131). -/
def Obligations.ExactFitFillsTheBuffer : Prop :=
  ∀ (s : State) (g : Glyph), 1 ≤ g.width.toNat → g.width.toNat ≤ 8 → s.cursor + g.width.toNat = s.totalWidth →
    ∃ t, exec (.append g) s = .next t ∧ t.cursor = t.totalWidth ∧ t.responses = s.responses ++ [0x00000000#32] ∧
      ∀ is : List Instr, .clear ∉ is → ∃ u, execAll is t = .next u ∧
        ∀ g' : Glyph, 1 ≤ g'.width.toNat → g'.width.toNat ≤ 8 →
          ∃ v, exec (.append g') u = .next v ∧ u.RejectedFrom .ovf v

/-- O28: with P = 0 every APPEND of valid width is rejected with OVF, and one of invalid width with BADW (R132). -/
def Obligations.NoPanelsRejectsEveryAppend : Prop :=
  ∀ (s : State) (g : Glyph), s.pcount = 0 →
    ∃ t, exec (.append g) s = .next t ∧
      (g.valid = true → s.RejectedFrom .ovf t) ∧ (g.valid = false → s.RejectedFrom .badw t)

/-- O29: an accepted APPEND corrupts no earlier glyph: below CURSOR every bit is as before, and the OR is an addition
(R128's first sentence), given that no bit at or above CURSOR was set (R127). -/
def Obligations.AppendCorruptsNoEarlierGlyph : Prop :=
  ∀ (s : State) (g : Glyph), (∀ r : Fin 8, s.rows[r] < 2 ^ s.cursor) →
    1 ≤ g.width.toNat → g.width.toNat ≤ 8 → s.cursor + g.width.toNat ≤ s.totalWidth →
    ∃ t, exec (.append g) s = .next t ∧
      (∀ (r : Fin 8) (k : Nat), k < s.cursor → t.rows[r].testBit k = s.rows[r].testBit k) ∧
      (∀ r : Fin 8, t.rows[r] = s.rows[r] + (g.rows[r].toNat % 2 ^ g.width.toNat) * 2 ^ s.cursor)

/-- O30: after CLEAR and any APPENDs, CURSOR is the sum of the widths of the accepted ones (R129), and each row the sum of their
masked rows shifted by the widths before them (R128's equation); rejected ones contribute nothing. -/
def Obligations.RowsAreTheSumOfTheGlyphs : Prop :=
  ∀ (s : State) (gs : List Glyph),
    ∃ t, execAll (.clear :: gs.map .append) s = .next t ∧
      t.cursor = widthSum (acceptedFrom (8 * s.pcount) 0 gs) ∧
      ∀ r : Fin 8, t.rows[r] = rowSum r 0 (acceptedFrom (8 * s.pcount) 0 gs)

/-- O31: composition is blind to the alignment: leaving every SETALIGN out of a list of commands gives the same rows and the same
cursor (R130). -/
def Obligations.CompositionIgnoresAlignment : Prop :=
  ∀ (is : List Instr) (s : State),
    ∃ t u, execAll is s = .next t ∧
      execAll (is.filter fun i => match i with
        | .setalign _ => false
        | _ => true) s = .next u ∧
      t.rows = u.rows ∧ t.cursor = u.cursor

/-! ## Alignment and slices -/

/-- O32: SETALIGN writes ALIGN and nothing else for the codes 0 to 2; code 3 is rejected with ILL and leaves ALIGN as it was
(R141). -/
def Obligations.SetalignWritesTheMode : Prop :=
  (∀ cw, decode cw = some (.setalign 0) ↔ cw = 0x000000000000000003#72) ∧
  (∀ cw, decode cw = some (.setalign 1) ↔ cw = 0x000000000000000013#72) ∧
  (∀ cw, decode cw = some (.setalign 2) ↔ cw = 0x000000000000000023#72) ∧
  (∀ cw, decode cw = some (.setalign 3) ↔ cw = 0x000000000000000033#72) ∧
  ∀ (s : State) (code : BitVec 2), ∃ t, exec (.setalign code) s = .next t ∧
    (code ≠ 3 → t.align.code = code ∧ t.rows = s.rows ∧ t.cursor = s.cursor ∧ t.pcount = s.pcount ∧
      t.status = s.status ∧ s.SamePorts t ∧ t.responses = s.responses ++ [0x00000000#32]) ∧
    (code = 3 → s.RejectedFrom .ill t)

/-- O33: GETALIGN responds the code of ALIGN and changes nothing (R142, R77). -/
def Obligations.GetalignRespondsTheCode : Prop :=
  (∀ cw, decode cw = some .getalign ↔ cw = 0x000000000000000004#72) ∧
  ∀ s : State, ∃ t, exec .getalign s = .next t ∧ s.SameBuffer t ∧ s.SamePorts t ∧ t.status = s.status ∧
    (s.align = .left → t.responses = s.responses ++ [0x00000000#32]) ∧
    (s.align = .center → t.responses = s.responses ++ [0x00000001#32]) ∧
    (s.align = .right → t.responses = s.responses ++ [0x00000002#32])

/-- O34: the run's place after alignment: RIGHT at `[0, CURSOR)`, LEFT at `[W - CURSOR, W)`, CENTER at `[L/2, L/2 + CURSOR)`
with the odd leftover column above it (R145); the aligned columns outside that place are clear. -/
def Obligations.AlignedRunIsPlacedByMode : Prop :=
  ∀ (s : State) (lo : Nat), s.cursor ≤ s.totalWidth → (∀ r : Fin 8, s.rows[r] < 2 ^ s.cursor) →
    (s.align = .right ∧ lo = 0 ∨ s.align = .left ∧ lo = s.totalWidth - s.cursor ∨
      s.align = .center ∧ lo = (s.totalWidth - s.cursor) / 2) →
    (∀ (r : Fin 8) (k : Nat), s.alignedColumn r (lo + k) = s.rows[r].testBit k) ∧
    (∀ (r : Fin 8) (k : Nat), k < lo ∨ lo + s.cursor ≤ k → s.alignedColumn r k = false) ∧
    (s.align = .left → lo + s.cursor = s.totalWidth) ∧
    (s.align = .center → lo ≤ s.totalWidth - (lo + s.cursor) ∧ s.totalWidth - (lo + s.cursor) ≤ lo + 1)

/-- O35: the aligned row has no bit at or above W (R146). -/
def Obligations.AlignedRowFitsTheChain : Prop :=
  ∀ (s : State) (r : Fin 8), s.cursor ≤ s.totalWidth → (∀ r : Fin 8, s.rows[r] < 2 ^ s.cursor) →
    s.aligned r < 2 ^ s.totalWidth

/-- O36: the modes agree when CURSOR = W; CENTER is RIGHT when CURSOR = W - 1; every aligned row is 0 when CURSOR = 0 (R147). -/
def Obligations.EqualModes : Prop :=
  ∀ (s : State) (r : Fin 8) (a b : Align), (∀ r : Fin 8, s.rows[r] < 2 ^ s.cursor) →
    (s.cursor = s.totalWidth → { s with align := a }.aligned r = { s with align := b }.aligned r) ∧
    (s.cursor + 1 = s.totalWidth → { s with align := .center }.aligned r = { s with align := .right }.aligned r) ∧
    (s.cursor = 0 → { s with align := a }.aligned r = 0)

/-- O37: an in-range PANELROW responds, in DATA bit `j` below 8, the aligned column `8p + j` of its row, 0 in every other bit,
and changes nothing; out of range it is rejected with RANGE (R161, R162). -/
def Obligations.PanelrowReadsTheAlignedColumns : Prop :=
  (∀ (cw : CmdWord) (r : Fin 8) (p : BitVec 16), decode cw = some (.panelrow r p) ↔
    cw = BitVec.ofNat 72 ((p.toNat <<< 8) ||| (r.val <<< 4) ||| 0x5)) ∧
  (∀ (s : State) (r : Fin 8) (p : BitVec 16), p.toNat < s.pcount →
    ∃ t rsp, exec (.panelrow r p) s = .next t ∧ s.SameBuffer t ∧ s.SamePorts t ∧ t.status = s.status ∧
      t.responses = s.responses ++ [rsp] ∧
      ∀ j, rsp.getLsbD j = (decide (j < 8) && s.alignedColumn r (8 * p.toNat + j))) ∧
  (∀ (s : State) (r : Fin 8) (p : BitVec 16), s.pcount ≤ p.toNat →
    ∃ t, exec (.panelrow r p) s = .next t ∧ s.RejectedFrom .range t)

/-- O38: a PANELROW whose panel index is at or above P is rejected with RANGE (R163). -/
def Obligations.PanelrowOutOfRangeIsRejected : Prop :=
  ∀ (s : State) (r : Fin 8) (p : BitVec 16), s.pcount ≤ p.toNat →
    ∃ t, exec (.panelrow r p) s = .next t ∧ s.RejectedFrom .range t

/-- O39: the panel bytes cover the aligned row exactly (R165), so with one panel the byte is the row (R168). -/
def Obligations.PanelBytesCoverTheRow : Prop :=
  ∀ (s : State) (r : Fin 8), s.cursor ≤ s.totalWidth → (∀ r : Fin 8, s.rows[r] < 2 ^ s.cursor) →
    s.aligned r = ((List.range s.pcount).map fun p => (s.pbyte p r).toNat <<< (8 * p)).sum ∧
    (s.pcount = 1 → (s.pbyte 0 r).toNat = s.aligned r)

/-- O40: after CLEAR, and until the next APPEND that is accepted, every in-range PANELROW responds 0 in every mode (R166). -/
def Obligations.ClearedPanelsReadZero : Prop :=
  ∀ (s : State) (is : List Instr), (∀ g, .append g ∈ is → g.valid = false ∨ s.totalWidth < g.width.toNat) →
    ∃ t, execAll (.clear :: is) s = .next t ∧
      ∀ (r : Fin 8) (p : BitVec 16), p.toNat < t.pcount →
        ∃ u, exec (.panelrow r p) t = .next u ∧ u.responses = t.responses ++ [0x00000000#32]

/-- O41: the reading commands change no state and, repeated, give the same response: GETALIGN, GETCURSOR, GETPCOUNT, GETSTATUS
and an in-range PANELROW; an out-of-range PANELROW sets RANGE and repeats its response (R58, R167). -/
def Obligations.ReadsAreIdempotent : Prop :=
  ∀ (s : State) (i : Instr),
    (i = .getalign ∨ i = .getcursor ∨ i = .getpcount ∨ i = .getstatus ∨ ∃ r p, i = .panelrow r p) →
    ∃ t u rsp, exec i s = .next t ∧ exec i t = .next u ∧
      t.responses = s.responses ++ [rsp] ∧ u.responses = t.responses ++ [rsp] ∧
      s.SameBuffer t ∧ s.SamePorts t ∧ t.SameBuffer u ∧ t.SamePorts u ∧ u.status = t.status ∧
      ((∀ r p, i = .panelrow r p → p.toNat < s.pcount) → t.status = s.status) ∧
      (∀ r p, i = .panelrow r p → s.pcount ≤ p.toNat → t.hasFlag .range = true)

/-- O42: RIGHT is the identity placement: bit `j` of a panel byte is bit `8p + j` of the row as composed (R164). -/
def Obligations.RightReadsTheComposedBits : Prop :=
  ∀ (s : State) (p : Nat) (r : Fin 8), s.align = .right →
    (s.pbyte p r).toNat = (s.rows[r] >>> (8 * p)) % 256

/-! ## Render -/

/-- O43: with P = 0 a RENDER sends no request and responds 0, in IDLE (R187). -/
def Obligations.RenderOfNoPanelsEndsAtOnce : Prop :=
  ∀ s : State, s.pcount = 0 →
    ∃ t, exec .render s = .next t ∧ t.requests = s.requests ∧ t.responses = s.responses ++ [0x00000000#32] ∧
      t.phase = .idle ∧ s.SameBuffer t ∧ t.status = s.status ∧ t.offered = s.offered ∧ t.agenda = s.agenda

/-- O44: with panels, RENDER enters RENDERING at panel 0, row 0, and sends that byte as `ROWSET(1, v, 1)`, with no response yet.
That this is one step, and each driver answer another, is the model's choice (log 21). -/
def Obligations.RenderSendsItsFirstByte : Prop :=
  ∀ s : State, s.pcount ≠ 0 →
    ∃ t v, exec .render s = .next t ∧ t.phase = .rendering ∧ t.rp = 0 ∧ t.rr = 0 ∧
      t.requests = s.requests ++ [.rowset 1 v 1] ∧ (∀ j, j < 8 → v.getLsbD j = s.alignedColumn 0 j) ∧
      t.responses = s.responses ∧ s.SameBuffer t ∧ t.status = s.status ∧ t.offered = s.offered ∧ t.agenda = s.agenda

/-- O45: an accepted RENDER whose requests are answered OK sends the panel bytes, panel outer and row inner, both ascending, each
one once: after `m` OKs, fewer than `8 * P`, it has sent the first `m + 1` and no response, and with the last OK it has sent them
all, responds 0 and is in IDLE (R182, R185, R188). Between the answers the host may offer words, the FBC wait, late answers and
answers of another kind come (log 7), in any number and order; buffer and flags are as before and the words offered wait. One
step for each turn is the model's choice (log 21). -/
def Obligations.RenderSendsEveryPanelByteInOrder : Prop :=
  ∀ (s s' : State) (during turns : List Turn), s.Accepts (encode .render) s' → s'.agenda = during ++ turns →
    .platform ∉ during → .driver .fail ∉ during →
    s.renderRequests.length = 8 * s.pcount ∧
    (during.count (.driver .ok) < 8 * s.pcount →
      ∃ t, runSteps (during.length + 1) s = .next t ∧
        t.requests = s.requests ++ s.renderRequests.take (during.count (.driver .ok) + 1) ∧
        t.responses = s.responses ∧ t.phase = .rendering ∧ s.SameBuffer t ∧ t.status = s.status ∧
        t.offered = s'.offered ++ hostWords during ∧ t.agenda = turns) ∧
    (during.count (.driver .ok) = 8 * s.pcount → during = [] ∨ during.getLast? = some (.driver .ok) →
      ∃ t, runSteps (during.length + 1) s = .next t ∧
        t.requests = s.requests ++ s.renderRequests ∧
        t.responses = s.responses ++ [0x00000000#32] ∧ t.phase = .idle ∧ s.SameBuffer t ∧ t.status = s.status ∧
        t.offered = s'.offered ++ hostWords during ∧ t.agenda = turns)

/-- O46: an accepted RENDER whose `k`-th request is the first one answered FAIL sends exactly its first `k` requests, sets DRVERR
and no other flag, responds `0x80000000` and is back in IDLE (R184, R188), whatever words, waiting turns, late answers and answers
of another kind (log 7) come between the answers. One step for each turn is the model's choice (log 21). -/
def Obligations.RenderStopsAtTheFirstFailure : Prop :=
  ∀ (s s' : State) (k : Nat) (during turns : List Turn), s.Accepts (encode .render) s' →
    s'.agenda = during ++ .driver .fail :: turns → .platform ∉ during → .driver .fail ∉ during →
    k = during.count (.driver .ok) + 1 → k ≤ 8 * s.pcount →
    ∃ t, runSteps (during.length + 2) s = .next t ∧
      t.requests = s.requests ++ s.renderRequests.take k ∧ (s.renderRequests.take k).length = k ∧
      t.hasFlag .drverr = true ∧ (∀ b, b ≠ 4 → t.status.getLsbD b = s.status.getLsbD b) ∧
      t.responses = s.responses ++ [0x80000000#32] ∧ t.phase = .idle ∧ s.SameBuffer t ∧
      t.offered = s'.offered ++ hostWords during ∧ t.agenda = turns

/-- O47: the request for panel `p` and row `r` of a RENDER is `ROWSET(r + 1, v, p + 1)`, and `v` is the byte PANELROW responds
for them (R181, R183); every panel and row is asked for, and no other. -/
def Obligations.RenderBytesAreThePanelrowBytes : Prop :=
  ∀ s : State, s.pcount ≤ 65536 →
    (∀ q ∈ s.renderRequests, ∃ (p : BitVec 16) (r : Fin 8), p.toNat < s.pcount ∧
      q = s.rowset p.toNat r) ∧
    (∀ (p : BitVec 16) (r : Fin 8), p.toNat < s.pcount →
      ∃ t v, .rowset (r.val + 1) v (p.toNat + 1) ∈ s.renderRequests ∧
        exec (.panelrow r p) s = .next t ∧ t.responses = s.responses ++ [BitVec.setWidth 32 v])

/-- O48: what a step in RENDERING does, a reset apart. It keeps the buffer, the mode and the panel count (R183, R273), and a word
offered waits. A turn that is no OK and no FAIL of the driver leaves the sequencer where it is and sends nothing (an answer of
another kind: log 7). An OK moves the render counter to the next byte in R185's order and sends it, or, after the last byte, ends
the RENDER with the response 0. A FAIL ends it with DRVERR alone and the response `0x80000000` (R182, R184). -/
def Obligations.RenderingKeepsTheBuffer : Prop :=
  ∀ s t : State, s.phase = .rendering → s.nextTurn.1 ≠ .platform → step s = .next t →
    s.SameBuffer t ∧ t.agenda = s.nextTurn.2 ∧ t.offered = s.offered ++ hostWords [s.nextTurn.1] ∧
    (s.nextTurn.1 ≠ .driver .ok → s.nextTurn.1 ≠ .driver .fail →
      t.phase = .rendering ∧ t.rp = s.rp ∧ t.rr = s.rr ∧ t.requests = s.requests ∧ t.responses = s.responses ∧
        t.status = s.status) ∧
    (s.nextTurn.1 = .driver .ok → s.rp < s.pcount →
      t.status = s.status ∧
      (8 * s.rp + s.rr.val + 1 < 8 * s.pcount →
        t.phase = .rendering ∧ 8 * t.rp + t.rr.val = 8 * s.rp + s.rr.val + 1 ∧
          t.requests = s.requests ++ [s.rowset t.rp t.rr] ∧ t.responses = s.responses) ∧
      (8 * s.rp + s.rr.val + 1 = 8 * s.pcount →
        t.phase = .idle ∧ t.requests = s.requests ∧ t.responses = s.responses ++ [0x00000000#32])) ∧
    (s.nextTurn.1 = .driver .fail →
      t.phase = .idle ∧ t.requests = s.requests ∧ t.responses = s.responses ++ [0x80000000#32] ∧
        t.hasFlag .drverr = true ∧ ∀ b, b ≠ 4 → t.status.getLsbD b = s.status.getLsbD b)

/-- O49: a step sends at most one driver request, and a ROWSET only with row in 1..8 and panel in 1..P (R57). -/
def Obligations.DriverRequestsAreInRange : Prop :=
  ∀ s t : State, s.Inv → step s = .next t →
    t.requests = s.requests ∨
      ∃ q, t.requests = s.requests ++ [q] ∧
        (q = .init ∨ q = .query ∨
          ∃ row v panel, q = .rowset row v panel ∧ 1 ≤ row ∧ row ≤ 8 ∧ 1 ≤ panel ∧ panel ≤ t.pcount)

/-! ## Observation and status -/

/-- O50: GETCURSOR responds CURSOR, at most 524288, and changes nothing (R201). -/
def Obligations.GetcursorRespondsTheCursor : Prop :=
  (∀ cw, decode cw = some .getcursor ↔ cw = 0x000000000000000007#72) ∧
  ∀ s : State, s.cursor ≤ s.totalWidth → s.pcount ≤ 65536 →
    ∃ t rsp, exec .getcursor s = .next t ∧ t.responses = s.responses ++ [rsp] ∧
      rsp.toNat = s.cursor ∧ rsp.toNat ≤ 524288 ∧ s.SameBuffer t ∧ s.SamePorts t ∧ t.status = s.status

/-- O51: GETPCOUNT responds P and changes nothing (R202). -/
def Obligations.GetpcountRespondsTheCount : Prop :=
  (∀ cw, decode cw = some .getpcount ↔ cw = 0x000000000000000008#72) ∧
  ∀ s : State, s.pcount ≤ 65536 →
    ∃ t rsp, exec .getpcount s = .next t ∧ t.responses = s.responses ++ [rsp] ∧
      rsp.toNat = s.pcount ∧ s.SameBuffer t ∧ s.SamePorts t ∧ t.status = s.status

/-- O52: GETSTATUS responds the six flags in DATA bits 5:0 and 0 in every other bit, and clears nothing (R204, R28). -/
def Obligations.GetstatusRespondsTheFlags : Prop :=
  (∀ cw, decode cw = some .getstatus ↔ cw = 0x000000000000000009#72) ∧
  ∀ s : State, ∃ t rsp, exec .getstatus s = .next t ∧ t.responses = s.responses ++ [rsp] ∧
    (∀ k, rsp.getLsbD k = (decide (k < 6) && s.status.getLsbD k)) ∧
    s.SameBuffer t ∧ s.SamePorts t ∧ t.status = s.status

/-- O53: every flag is sticky: no step but a reset clears one, and a reset clears them all; CLEAR and GETSTATUS leave STATUS as
it was (R27). -/
def Obligations.FlagsAreSticky : Prop :=
  (∀ s t : State, step s = .next t →
    (s.nextTurn.1 ≠ .platform → ∀ f : Flag, s.hasFlag f = true → t.hasFlag f = true) ∧
    (s.nextTurn.1 = .platform → ∀ f : Flag, t.hasFlag f = false)) ∧
  (∀ (s : State) (i : Instr), i = .clear ∨ i = .getstatus → ∃ t, exec i s = .next t ∧ t.status = s.status)

/-- O54: a flag is set only by its own event (R26): ILL by an accepted word that is illegal or is SETALIGN with code 3, BADW by an
APPEND of bad width, OVF by an APPEND that does not fit, RANGE by a PANELROW out of range, DRVERR by a driver's FAIL, CFGERR by
an answer that ends the reset sequence without a panel count of 1 to PMAX. -/
def Obligations.FlagsAreSetOnlyByTheirEvents : Prop :=
  ∀ (s t : State) (f : Flag), step s = .next t → s.hasFlag f = false → t.hasFlag f = true →
    (f = .ill ∧ ∃ cw s', s.Accepts cw s' ∧ (decode cw = none ∨ decode cw = some (.setalign 3))) ∨
    (f = .badw ∧ ∃ cw s' g, s.Accepts cw s' ∧ decode cw = some (.append g) ∧ g.valid = false) ∨
    (f = .ovf ∧ ∃ cw s' g, s.Accepts cw s' ∧ decode cw = some (.append g) ∧ g.valid = true ∧
      s.totalWidth < s.cursor + g.width.toNat) ∨
    (f = .range ∧ ∃ cw s' r p, s.Accepts cw s' ∧ decode cw = some (.panelrow r p) ∧ s.pcount ≤ p.toNat) ∨
    (f = .drverr ∧ s.nextTurn.1 = .driver .fail ∧
      (s.phase = .resetSeq .initSent ∨ s.phase = .resetSeq .querySent ∨ s.phase = .rendering)) ∨
    (f = .cfgerr ∧ ((s.phase = .resetSeq .initSent ∨ s.phase = .resetSeq .querySent) ∧ s.nextTurn.1 = .driver .fail ∨
      s.phase = .resetSeq .querySent ∧ ∃ n, s.nextTurn.1 = .driver (.count n) ∧
        ¬ (1 ≤ n.toNat ∧ n.toNat ≤ Config.pmax)))

/-- O55: only CLEAR and an accepted APPEND write ROWS and CURSOR, only a SETALIGN of code 0 to 2 writes ALIGN, and a reset
(R21, R23, R24). -/
def Obligations.OnlyTheirCommandsWriteTheBuffer : Prop :=
  ∀ s t : State, step s = .next t → s.nextTurn.1 ≠ .platform →
    (t.rows ≠ s.rows ∨ t.cursor ≠ s.cursor →
      ∃ cw s', s.Accepts cw s' ∧
        (decode cw = some .clear ∨
          ∃ g, decode cw = some (.append g) ∧ g.valid = true ∧ s.cursor + g.width.toNat ≤ s.totalWidth)) ∧
    (t.align ≠ s.align →
      ∃ cw s' c, s.Accepts cw s' ∧ decode cw = some (.setalign c) ∧ c ≠ 3 ∧ t.align.code = c)

/-! ## Invariants -/

/-- O56: every step keeps the invariant, from every state that has it (R25, R28, R32, R126, R127, R203, R261). -/
def Obligations.EveryStepKeepsTheInvariant : Prop :=
  ∀ s t : State, s.Inv → step s = .next t → t.Inv

/-- O57: the state right after reset has the invariant, whatever turns are to come. -/
def Obligations.ResetHasTheInvariant : Prop :=
  ∀ turns : List Turn, { State.reset with agenda := turns }.Inv

/-- O58: in every state reachable from reset, whatever the host, the driver and the platform do, CURSOR is at most W and no bit
of a row at or above CURSOR is set (R126, R127). -/
def Obligations.CursorAndRowsStayInBounds : Prop :=
  ∀ (turns : List Turn) (k : Nat) (t : State), runSteps k { State.reset with agenda := turns } = .next t →
    t.cursor ≤ 8 * t.pcount ∧ ∀ r : Fin 8, t.rows[r] < 2 ^ t.cursor

/-- O59: RP and RR are not observable outside RENDERING: states that differ in them alone step to states that differ in them
alone, and that are equal where the step enters RENDERING (R32). -/
def Obligations.RenderCounterIsUnobservable : Prop :=
  ∀ s t s' t' : State, s.phase ≠ .rendering → s.sameButCounter t → step s = .next s' → step t = .next t' →
    s'.sameButCounter t' ∧ (s'.phase = .rendering → s' = t')

/-- O60: no command but RENDER writes RP and RR; that they hold still outside RENDERING, where the spec leaves them unspecified,
is the model's choice (log 3). -/
def Obligations.OnlyRenderWritesTheCounter : Prop :=
  ∀ (i : Instr) (s t : State), i ≠ .render → exec i s = .next t → t.rp = s.rp ∧ t.rr = s.rr
end

