-- ==== Sys2Proof/Laws/Decode.lean ====
section
/-! SUPPORT. The fields of a command word, bit by bit, and what the decoder reads from a word made of fields. -/

namespace Sys2Proof

/-- The bits of a word made of fields (R71). -/
theorem ofFields_bit (op a : BitVec 4) (d : BitVec 64) (k : Nat) :
    (ofFields op a d).getLsbD k =
      if k < 4 then op.getLsbD k else if k < 8 then a.getLsbD (k - 4) else d.getLsbD (k - 8) := by
  change (d ++ a ++ op : BitVec (64 + 4 + 4)).getLsbD k = _
  rw [BitVec.getLsbD_append, BitVec.getLsbD_append]
  by_cases h : k < 4
  · simp [h]
  · by_cases h2 : k < 8
    · have h3 : k - 4 < 4 := by omega
      simp [h, h2, h3]
    · have h3 : ¬ k - 4 < 4 := by omega
      have h4 : k - 4 - 4 = k - 8 := by omega
      simp [h, h2, h3, h4]

@[simp] theorem opField_ofFields (op a : BitVec 4) (d : BitVec 64) : opField (ofFields op a d) = op := by
  apply BitVec.eq_of_getLsbD_eq
  intro k hk
  simp [opField, ofFields_bit, hk]

@[simp] theorem argField_ofFields (op a : BitVec 4) (d : BitVec 64) : argField (ofFields op a d) = a := by
  apply BitVec.eq_of_getLsbD_eq
  intro k hk
  have h : 4 + k < 8 := by omega
  simp [argField, ofFields_bit, hk, h]

@[simp] theorem payload_ofFields (op a : BitVec 4) (d : BitVec 64) : payload (ofFields op a d) = d := by
  apply BitVec.eq_of_getLsbD_eq
  intro k hk
  have h : ¬ 8 + k < 4 := by omega
  simp [payload, ofFields_bit, hk, h]

/-- A word is made of its three fields (R71). -/
theorem ofFields_self (cw : CmdWord) : ofFields (opField cw) (argField cw) (payload cw) = cw := by
  apply BitVec.eq_of_getLsbD_eq
  intro k hk
  rw [ofFields_bit]
  by_cases h : k < 4
  · simp [h, opField]
  · by_cases h2 : k < 8
    · have h3 : k - 4 < 4 := by omega
      have h4 : 4 + (k - 4) = k := by omega
      simp [h, h2, h3, h4, argField]
    · have h3 : k - 8 < 64 := by omega
      have h4 : 8 + (k - 8) = k := by omega
      simp [h, h2, h3, h4, payload]

/-- Byte `r` of an APPEND's payload is glyph row `r` (R74). -/
theorem payloadByte_glyph (g : Glyph) (r : Fin 8) : payloadByte g.payload r = g.rows[r] := by
  apply BitVec.eq_of_getLsbD_eq
  intro k hk
  change (BitVec.extractLsb' (8 * r.val) 8 (g.rows[7] ++ g.rows[6] ++ g.rows[5] ++ g.rows[4] ++ g.rows[3] ++ g.rows[2] ++
    g.rows[1] ++ g.rows[0] : BitVec (8 + 8 + 8 + 8 + 8 + 8 + 8 + 8))).getLsbD k = _
  fin_cases r <;>
    simp only [BitVec.getLsbD_extractLsb', BitVec.getLsbD_append, hk, decide_true, Bool.true_and, Fin.getElem_fin] <;>
    repeat' (first | rw [if_pos (by omega)] | rw [if_neg (by omega)])
  all_goals congr 1
  all_goals omega

end Sys2Proof
end

