-- ==== Sys2Proof/Laws/State.lean ====
section
/-! SUPPORT. One lemma per field per update of the state, each true by unfolding once. -/

namespace Sys2Proof.Machine

section Fields

variable (s : State)

/-! `State.setFlag` -/
@[simp] theorem State.setFlag_rows (f : Flag) : (s.setFlag f).rows = s.rows := rfl
@[simp] theorem State.setFlag_cursor (f : Flag) : (s.setFlag f).cursor = s.cursor := rfl
@[simp] theorem State.setFlag_align (f : Flag) : (s.setFlag f).align = s.align := rfl
@[simp] theorem State.setFlag_pcount (f : Flag) : (s.setFlag f).pcount = s.pcount := rfl
@[simp] theorem State.setFlag_status (f : Flag) : (s.setFlag f).status = s.status ||| f.mask := rfl
@[simp] theorem State.setFlag_phase (f : Flag) : (s.setFlag f).phase = s.phase := rfl
@[simp] theorem State.setFlag_rp (f : Flag) : (s.setFlag f).rp = s.rp := rfl
@[simp] theorem State.setFlag_rr (f : Flag) : (s.setFlag f).rr = s.rr := rfl
@[simp] theorem State.setFlag_offered (f : Flag) : (s.setFlag f).offered = s.offered := rfl
@[simp] theorem State.setFlag_responses (f : Flag) : (s.setFlag f).responses = s.responses := rfl
@[simp] theorem State.setFlag_requests (f : Flag) : (s.setFlag f).requests = s.requests := rfl
@[simp] theorem State.setFlag_agenda (f : Flag) : (s.setFlag f).agenda = s.agenda := rfl
@[simp] theorem State.setFlag_freeIx (f : Flag) : (s.setFlag f).freeIx = s.freeIx := rfl
@[simp] theorem State.setFlag_lost (f : Flag) : (s.setFlag f).lost = s.lost := rfl

/-! `State.sendRsp` -/
@[simp] theorem State.sendRsp_rows (b : Bool) (d : BitVec 24) : (s.sendRsp b d).rows = s.rows := rfl
@[simp] theorem State.sendRsp_cursor (b : Bool) (d : BitVec 24) : (s.sendRsp b d).cursor = s.cursor := rfl
@[simp] theorem State.sendRsp_align (b : Bool) (d : BitVec 24) : (s.sendRsp b d).align = s.align := rfl
@[simp] theorem State.sendRsp_pcount (b : Bool) (d : BitVec 24) : (s.sendRsp b d).pcount = s.pcount := rfl
@[simp] theorem State.sendRsp_status (b : Bool) (d : BitVec 24) : (s.sendRsp b d).status = s.status := rfl
@[simp] theorem State.sendRsp_phase (b : Bool) (d : BitVec 24) : (s.sendRsp b d).phase = s.phase := rfl
@[simp] theorem State.sendRsp_rp (b : Bool) (d : BitVec 24) : (s.sendRsp b d).rp = s.rp := rfl
@[simp] theorem State.sendRsp_rr (b : Bool) (d : BitVec 24) : (s.sendRsp b d).rr = s.rr := rfl
@[simp] theorem State.sendRsp_offered (b : Bool) (d : BitVec 24) : (s.sendRsp b d).offered = s.offered := rfl
@[simp] theorem State.sendRsp_responses (b : Bool) (d : BitVec 24) : (s.sendRsp b d).responses = s.responses ++ [Rsp.make b d] := rfl
@[simp] theorem State.sendRsp_requests (b : Bool) (d : BitVec 24) : (s.sendRsp b d).requests = s.requests := rfl
@[simp] theorem State.sendRsp_agenda (b : Bool) (d : BitVec 24) : (s.sendRsp b d).agenda = s.agenda := rfl
@[simp] theorem State.sendRsp_freeIx (b : Bool) (d : BitVec 24) : (s.sendRsp b d).freeIx = s.freeIx := rfl
@[simp] theorem State.sendRsp_lost (b : Bool) (d : BitVec 24) : (s.sendRsp b d).lost = s.lost := rfl

/-! `State.rejected` -/
@[simp] theorem State.rejected_rows (f : Flag) : (s.rejected f).rows = s.rows := rfl
@[simp] theorem State.rejected_cursor (f : Flag) : (s.rejected f).cursor = s.cursor := rfl
@[simp] theorem State.rejected_align (f : Flag) : (s.rejected f).align = s.align := rfl
@[simp] theorem State.rejected_pcount (f : Flag) : (s.rejected f).pcount = s.pcount := rfl
@[simp] theorem State.rejected_status (f : Flag) : (s.rejected f).status = s.status ||| f.mask := rfl
@[simp] theorem State.rejected_phase (f : Flag) : (s.rejected f).phase = s.phase := rfl
@[simp] theorem State.rejected_rp (f : Flag) : (s.rejected f).rp = s.rp := rfl
@[simp] theorem State.rejected_rr (f : Flag) : (s.rejected f).rr = s.rr := rfl
@[simp] theorem State.rejected_offered (f : Flag) : (s.rejected f).offered = s.offered := rfl
@[simp] theorem State.rejected_responses (f : Flag) : (s.rejected f).responses = s.responses ++ [Rsp.make true 0] := rfl
@[simp] theorem State.rejected_requests (f : Flag) : (s.rejected f).requests = s.requests := rfl
@[simp] theorem State.rejected_agenda (f : Flag) : (s.rejected f).agenda = s.agenda := rfl
@[simp] theorem State.rejected_freeIx (f : Flag) : (s.rejected f).freeIx = s.freeIx := rfl
@[simp] theorem State.rejected_lost (f : Flag) : (s.rejected f).lost = s.lost := rfl

/-! `State.sendReq` -/
@[simp] theorem State.sendReq_rows (q : DrvReq) : (s.sendReq q).rows = s.rows := rfl
@[simp] theorem State.sendReq_cursor (q : DrvReq) : (s.sendReq q).cursor = s.cursor := rfl
@[simp] theorem State.sendReq_align (q : DrvReq) : (s.sendReq q).align = s.align := rfl
@[simp] theorem State.sendReq_pcount (q : DrvReq) : (s.sendReq q).pcount = s.pcount := rfl
@[simp] theorem State.sendReq_status (q : DrvReq) : (s.sendReq q).status = s.status := rfl
@[simp] theorem State.sendReq_phase (q : DrvReq) : (s.sendReq q).phase = s.phase := rfl
@[simp] theorem State.sendReq_rp (q : DrvReq) : (s.sendReq q).rp = s.rp := rfl
@[simp] theorem State.sendReq_rr (q : DrvReq) : (s.sendReq q).rr = s.rr := rfl
@[simp] theorem State.sendReq_offered (q : DrvReq) : (s.sendReq q).offered = s.offered := rfl
@[simp] theorem State.sendReq_responses (q : DrvReq) : (s.sendReq q).responses = s.responses := rfl
@[simp] theorem State.sendReq_requests (q : DrvReq) : (s.sendReq q).requests = s.requests ++ [q] := rfl
@[simp] theorem State.sendReq_agenda (q : DrvReq) : (s.sendReq q).agenda = s.agenda := rfl
@[simp] theorem State.sendReq_freeIx (q : DrvReq) : (s.sendReq q).freeIx = s.freeIx := rfl
@[simp] theorem State.sendReq_lost (q : DrvReq) : (s.sendReq q).lost = s.lost := rfl

/-! `State.cleared` -/
@[simp] theorem State.cleared_rows : (s.cleared).rows = Vector.replicate 8 0 := rfl
@[simp] theorem State.cleared_cursor : (s.cleared).cursor = 0 := rfl
@[simp] theorem State.cleared_align : (s.cleared).align = s.align := rfl
@[simp] theorem State.cleared_pcount : (s.cleared).pcount = s.pcount := rfl
@[simp] theorem State.cleared_status : (s.cleared).status = s.status := rfl
@[simp] theorem State.cleared_phase : (s.cleared).phase = s.phase := rfl
@[simp] theorem State.cleared_rp : (s.cleared).rp = s.rp := rfl
@[simp] theorem State.cleared_rr : (s.cleared).rr = s.rr := rfl
@[simp] theorem State.cleared_offered : (s.cleared).offered = s.offered := rfl
@[simp] theorem State.cleared_responses : (s.cleared).responses = s.responses := rfl
@[simp] theorem State.cleared_requests : (s.cleared).requests = s.requests := rfl
@[simp] theorem State.cleared_agenda : (s.cleared).agenda = s.agenda := rfl
@[simp] theorem State.cleared_freeIx : (s.cleared).freeIx = s.freeIx := rfl
@[simp] theorem State.cleared_lost : (s.cleared).lost = s.lost := rfl

/-! `State.merge` -/
@[simp] theorem State.merge_rows (g : Glyph) : (s.merge g).rows = Vector.ofFn fun r : Fin 8 => s.rows[r] ||| (grow g r <<< s.cursor) := rfl
@[simp] theorem State.merge_cursor (g : Glyph) : (s.merge g).cursor = s.cursor + g.width.toNat := rfl
@[simp] theorem State.merge_align (g : Glyph) : (s.merge g).align = s.align := rfl
@[simp] theorem State.merge_pcount (g : Glyph) : (s.merge g).pcount = s.pcount := rfl
@[simp] theorem State.merge_status (g : Glyph) : (s.merge g).status = s.status := rfl
@[simp] theorem State.merge_phase (g : Glyph) : (s.merge g).phase = s.phase := rfl
@[simp] theorem State.merge_rp (g : Glyph) : (s.merge g).rp = s.rp := rfl
@[simp] theorem State.merge_rr (g : Glyph) : (s.merge g).rr = s.rr := rfl
@[simp] theorem State.merge_offered (g : Glyph) : (s.merge g).offered = s.offered := rfl
@[simp] theorem State.merge_responses (g : Glyph) : (s.merge g).responses = s.responses := rfl
@[simp] theorem State.merge_requests (g : Glyph) : (s.merge g).requests = s.requests := rfl
@[simp] theorem State.merge_agenda (g : Glyph) : (s.merge g).agenda = s.agenda := rfl
@[simp] theorem State.merge_freeIx (g : Glyph) : (s.merge g).freeIx = s.freeIx := rfl
@[simp] theorem State.merge_lost (g : Glyph) : (s.merge g).lost = s.lost := rfl

/-! `State.sendRow` -/
@[simp] theorem State.sendRow_rows (p : Nat) (r : Fin 8) : (s.sendRow p r).rows = s.rows := rfl
@[simp] theorem State.sendRow_cursor (p : Nat) (r : Fin 8) : (s.sendRow p r).cursor = s.cursor := rfl
@[simp] theorem State.sendRow_align (p : Nat) (r : Fin 8) : (s.sendRow p r).align = s.align := rfl
@[simp] theorem State.sendRow_pcount (p : Nat) (r : Fin 8) : (s.sendRow p r).pcount = s.pcount := rfl
@[simp] theorem State.sendRow_status (p : Nat) (r : Fin 8) : (s.sendRow p r).status = s.status := rfl
@[simp] theorem State.sendRow_phase (p : Nat) (r : Fin 8) : (s.sendRow p r).phase = .rendering := rfl
@[simp] theorem State.sendRow_rp (p : Nat) (r : Fin 8) : (s.sendRow p r).rp = p := rfl
@[simp] theorem State.sendRow_rr (p : Nat) (r : Fin 8) : (s.sendRow p r).rr = r := rfl
@[simp] theorem State.sendRow_offered (p : Nat) (r : Fin 8) : (s.sendRow p r).offered = s.offered := rfl
@[simp] theorem State.sendRow_responses (p : Nat) (r : Fin 8) : (s.sendRow p r).responses = s.responses := rfl
@[simp] theorem State.sendRow_requests (p : Nat) (r : Fin 8) : (s.sendRow p r).requests = s.requests ++ [s.rowset p r] := rfl
@[simp] theorem State.sendRow_agenda (p : Nat) (r : Fin 8) : (s.sendRow p r).agenda = s.agenda := rfl
@[simp] theorem State.sendRow_freeIx (p : Nat) (r : Fin 8) : (s.sendRow p r).freeIx = s.freeIx := rfl
@[simp] theorem State.sendRow_lost (p : Nat) (r : Fin 8) : (s.sendRow p r).lost = s.lost := rfl

/-! `State.leaveRender` -/
@[simp] theorem State.leaveRender_rows : (s.leaveRender).rows = s.rows := rfl
@[simp] theorem State.leaveRender_cursor : (s.leaveRender).cursor = s.cursor := rfl
@[simp] theorem State.leaveRender_align : (s.leaveRender).align = s.align := rfl
@[simp] theorem State.leaveRender_pcount : (s.leaveRender).pcount = s.pcount := rfl
@[simp] theorem State.leaveRender_status : (s.leaveRender).status = s.status := rfl
@[simp] theorem State.leaveRender_phase : (s.leaveRender).phase = .idle := rfl
@[simp] theorem State.leaveRender_rp : (s.leaveRender).rp = (Config.freeRp s.freeIx).toNat := rfl
@[simp] theorem State.leaveRender_rr : (s.leaveRender).rr = Config.freeRr s.freeIx := rfl
@[simp] theorem State.leaveRender_offered : (s.leaveRender).offered = s.offered := rfl
@[simp] theorem State.leaveRender_responses : (s.leaveRender).responses = s.responses := rfl
@[simp] theorem State.leaveRender_requests : (s.leaveRender).requests = s.requests := rfl
@[simp] theorem State.leaveRender_agenda : (s.leaveRender).agenda = s.agenda := rfl
@[simp] theorem State.leaveRender_freeIx : (s.leaveRender).freeIx = s.freeIx + 1 := rfl
@[simp] theorem State.leaveRender_lost : (s.leaveRender).lost = s.lost := rfl

/-! `State.renderDone` -/
@[simp] theorem State.renderDone_rows : (s.renderDone).rows = s.rows := rfl
@[simp] theorem State.renderDone_cursor : (s.renderDone).cursor = s.cursor := rfl
@[simp] theorem State.renderDone_align : (s.renderDone).align = s.align := rfl
@[simp] theorem State.renderDone_pcount : (s.renderDone).pcount = s.pcount := rfl
@[simp] theorem State.renderDone_status : (s.renderDone).status = s.status := rfl
@[simp] theorem State.renderDone_phase : (s.renderDone).phase = .idle := rfl
@[simp] theorem State.renderDone_rp : (s.renderDone).rp = (Config.freeRp s.freeIx).toNat := rfl
@[simp] theorem State.renderDone_rr : (s.renderDone).rr = Config.freeRr s.freeIx := rfl
@[simp] theorem State.renderDone_offered : (s.renderDone).offered = s.offered := rfl
@[simp] theorem State.renderDone_responses : (s.renderDone).responses = s.responses ++ [Rsp.make false 0] := rfl
@[simp] theorem State.renderDone_requests : (s.renderDone).requests = s.requests := rfl
@[simp] theorem State.renderDone_agenda : (s.renderDone).agenda = s.agenda := rfl
@[simp] theorem State.renderDone_freeIx : (s.renderDone).freeIx = s.freeIx + 1 := rfl
@[simp] theorem State.renderDone_lost : (s.renderDone).lost = s.lost := rfl

/-! `State.renderAborted` -/
@[simp] theorem State.renderAborted_rows : (s.renderAborted).rows = s.rows := rfl
@[simp] theorem State.renderAborted_cursor : (s.renderAborted).cursor = s.cursor := rfl
@[simp] theorem State.renderAborted_align : (s.renderAborted).align = s.align := rfl
@[simp] theorem State.renderAborted_pcount : (s.renderAborted).pcount = s.pcount := rfl
@[simp] theorem State.renderAborted_status : (s.renderAborted).status = s.status ||| Flag.drverr.mask := rfl
@[simp] theorem State.renderAborted_phase : (s.renderAborted).phase = .idle := rfl
@[simp] theorem State.renderAborted_rp : (s.renderAborted).rp = (Config.freeRp s.freeIx).toNat := rfl
@[simp] theorem State.renderAborted_rr : (s.renderAborted).rr = Config.freeRr s.freeIx := rfl
@[simp] theorem State.renderAborted_offered : (s.renderAborted).offered = s.offered := rfl
@[simp] theorem State.renderAborted_responses : (s.renderAborted).responses = s.responses ++ [Rsp.make true 0] := rfl
@[simp] theorem State.renderAborted_requests : (s.renderAborted).requests = s.requests := rfl
@[simp] theorem State.renderAborted_agenda : (s.renderAborted).agenda = s.agenda := rfl
@[simp] theorem State.renderAborted_freeIx : (s.renderAborted).freeIx = s.freeIx + 1 := rfl
@[simp] theorem State.renderAborted_lost : (s.renderAborted).lost = s.lost := rfl

/-! `State.assertReset` -/
@[simp] theorem State.assertReset_rows : (s.assertReset).rows = Vector.replicate 8 0 := rfl
@[simp] theorem State.assertReset_cursor : (s.assertReset).cursor = 0 := rfl
@[simp] theorem State.assertReset_align : (s.assertReset).align = .center := rfl
@[simp] theorem State.assertReset_pcount : (s.assertReset).pcount = 0 := rfl
@[simp] theorem State.assertReset_status : (s.assertReset).status = 0 := rfl
@[simp] theorem State.assertReset_phase : (s.assertReset).phase = .resetSeq .start := rfl
@[simp] theorem State.assertReset_rp : (s.assertReset).rp = 0 := rfl
@[simp] theorem State.assertReset_rr : (s.assertReset).rr = 0 := rfl
@[simp] theorem State.assertReset_offered : (s.assertReset).offered = [] := rfl
@[simp] theorem State.assertReset_responses : (s.assertReset).responses = s.responses := rfl
@[simp] theorem State.assertReset_requests : (s.assertReset).requests = s.requests := rfl
@[simp] theorem State.assertReset_agenda : (s.assertReset).agenda = s.agenda := rfl
@[simp] theorem State.assertReset_freeIx : (s.assertReset).freeIx = s.freeIx := rfl
@[simp] theorem State.assertReset_lost : (s.assertReset).lost = s.lost + s.unanswered := rfl

/-! `State.sendInit` -/
@[simp] theorem State.sendInit_rows : (s.sendInit).rows = s.rows := rfl
@[simp] theorem State.sendInit_cursor : (s.sendInit).cursor = s.cursor := rfl
@[simp] theorem State.sendInit_align : (s.sendInit).align = s.align := rfl
@[simp] theorem State.sendInit_pcount : (s.sendInit).pcount = s.pcount := rfl
@[simp] theorem State.sendInit_status : (s.sendInit).status = s.status := rfl
@[simp] theorem State.sendInit_phase : (s.sendInit).phase = .resetSeq .initSent := rfl
@[simp] theorem State.sendInit_rp : (s.sendInit).rp = s.rp := rfl
@[simp] theorem State.sendInit_rr : (s.sendInit).rr = s.rr := rfl
@[simp] theorem State.sendInit_offered : (s.sendInit).offered = s.offered := rfl
@[simp] theorem State.sendInit_responses : (s.sendInit).responses = s.responses := rfl
@[simp] theorem State.sendInit_requests : (s.sendInit).requests = s.requests ++ [.init] := rfl
@[simp] theorem State.sendInit_agenda : (s.sendInit).agenda = s.agenda := rfl
@[simp] theorem State.sendInit_freeIx : (s.sendInit).freeIx = s.freeIx := rfl
@[simp] theorem State.sendInit_lost : (s.sendInit).lost = s.lost := rfl

/-! `State.sendQuery` -/
@[simp] theorem State.sendQuery_rows : (s.sendQuery).rows = s.rows := rfl
@[simp] theorem State.sendQuery_cursor : (s.sendQuery).cursor = s.cursor := rfl
@[simp] theorem State.sendQuery_align : (s.sendQuery).align = s.align := rfl
@[simp] theorem State.sendQuery_pcount : (s.sendQuery).pcount = s.pcount := rfl
@[simp] theorem State.sendQuery_status : (s.sendQuery).status = s.status := rfl
@[simp] theorem State.sendQuery_phase : (s.sendQuery).phase = .resetSeq .querySent := rfl
@[simp] theorem State.sendQuery_rp : (s.sendQuery).rp = s.rp := rfl
@[simp] theorem State.sendQuery_rr : (s.sendQuery).rr = s.rr := rfl
@[simp] theorem State.sendQuery_offered : (s.sendQuery).offered = s.offered := rfl
@[simp] theorem State.sendQuery_responses : (s.sendQuery).responses = s.responses := rfl
@[simp] theorem State.sendQuery_requests : (s.sendQuery).requests = s.requests ++ [.query] := rfl
@[simp] theorem State.sendQuery_agenda : (s.sendQuery).agenda = s.agenda := rfl
@[simp] theorem State.sendQuery_freeIx : (s.sendQuery).freeIx = s.freeIx := rfl
@[simp] theorem State.sendQuery_lost : (s.sendQuery).lost = s.lost := rfl

/-! `State.endReset` -/
@[simp] theorem State.endReset_rows (n : Nat) : (s.endReset n).rows = s.rows := rfl
@[simp] theorem State.endReset_cursor (n : Nat) : (s.endReset n).cursor = s.cursor := rfl
@[simp] theorem State.endReset_align (n : Nat) : (s.endReset n).align = s.align := rfl
@[simp] theorem State.endReset_pcount (n : Nat) : (s.endReset n).pcount = n := rfl
@[simp] theorem State.endReset_status (n : Nat) : (s.endReset n).status = s.status := rfl
@[simp] theorem State.endReset_phase (n : Nat) : (s.endReset n).phase = .idle := rfl
@[simp] theorem State.endReset_rp (n : Nat) : (s.endReset n).rp = s.rp := rfl
@[simp] theorem State.endReset_rr (n : Nat) : (s.endReset n).rr = s.rr := rfl
@[simp] theorem State.endReset_offered (n : Nat) : (s.endReset n).offered = s.offered := rfl
@[simp] theorem State.endReset_responses (n : Nat) : (s.endReset n).responses = s.responses := rfl
@[simp] theorem State.endReset_requests (n : Nat) : (s.endReset n).requests = s.requests := rfl
@[simp] theorem State.endReset_agenda (n : Nat) : (s.endReset n).agenda = s.agenda := rfl
@[simp] theorem State.endReset_freeIx (n : Nat) : (s.endReset n).freeIx = s.freeIx := rfl
@[simp] theorem State.endReset_lost (n : Nat) : (s.endReset n).lost = s.lost := rfl

/-! `State.resetFailed` -/
@[simp] theorem State.resetFailed_rows : (s.resetFailed).rows = s.rows := rfl
@[simp] theorem State.resetFailed_cursor : (s.resetFailed).cursor = s.cursor := rfl
@[simp] theorem State.resetFailed_align : (s.resetFailed).align = s.align := rfl
@[simp] theorem State.resetFailed_pcount : (s.resetFailed).pcount = 0 := rfl
@[simp] theorem State.resetFailed_status : (s.resetFailed).status = s.status ||| Flag.drverr.mask ||| Flag.cfgerr.mask := rfl
@[simp] theorem State.resetFailed_phase : (s.resetFailed).phase = .idle := rfl
@[simp] theorem State.resetFailed_rp : (s.resetFailed).rp = s.rp := rfl
@[simp] theorem State.resetFailed_rr : (s.resetFailed).rr = s.rr := rfl
@[simp] theorem State.resetFailed_offered : (s.resetFailed).offered = s.offered := rfl
@[simp] theorem State.resetFailed_responses : (s.resetFailed).responses = s.responses := rfl
@[simp] theorem State.resetFailed_requests : (s.resetFailed).requests = s.requests := rfl
@[simp] theorem State.resetFailed_agenda : (s.resetFailed).agenda = s.agenda := rfl
@[simp] theorem State.resetFailed_freeIx : (s.resetFailed).freeIx = s.freeIx := rfl
@[simp] theorem State.resetFailed_lost : (s.resetFailed).lost = s.lost := rfl

/-! `State.hostOffers` -/
@[simp] theorem State.hostOffers_rows (cw : CmdWord) : (s.hostOffers cw).rows = s.rows := rfl
@[simp] theorem State.hostOffers_cursor (cw : CmdWord) : (s.hostOffers cw).cursor = s.cursor := rfl
@[simp] theorem State.hostOffers_align (cw : CmdWord) : (s.hostOffers cw).align = s.align := rfl
@[simp] theorem State.hostOffers_pcount (cw : CmdWord) : (s.hostOffers cw).pcount = s.pcount := rfl
@[simp] theorem State.hostOffers_status (cw : CmdWord) : (s.hostOffers cw).status = s.status := rfl
@[simp] theorem State.hostOffers_phase (cw : CmdWord) : (s.hostOffers cw).phase = s.phase := rfl
@[simp] theorem State.hostOffers_rp (cw : CmdWord) : (s.hostOffers cw).rp = s.rp := rfl
@[simp] theorem State.hostOffers_rr (cw : CmdWord) : (s.hostOffers cw).rr = s.rr := rfl
@[simp] theorem State.hostOffers_offered (cw : CmdWord) : (s.hostOffers cw).offered = s.offered ++ [cw] := rfl
@[simp] theorem State.hostOffers_responses (cw : CmdWord) : (s.hostOffers cw).responses = s.responses := rfl
@[simp] theorem State.hostOffers_requests (cw : CmdWord) : (s.hostOffers cw).requests = s.requests := rfl
@[simp] theorem State.hostOffers_agenda (cw : CmdWord) : (s.hostOffers cw).agenda = s.agenda := rfl
@[simp] theorem State.hostOffers_freeIx (cw : CmdWord) : (s.hostOffers cw).freeIx = s.freeIx := rfl
@[simp] theorem State.hostOffers_lost (cw : CmdWord) : (s.hostOffers cw).lost = s.lost := rfl

/-! `State.withWord` -/
@[simp] theorem State.withWord_rows (cw : CmdWord) : (s.withWord cw).rows = s.rows := rfl
@[simp] theorem State.withWord_cursor (cw : CmdWord) : (s.withWord cw).cursor = s.cursor := rfl
@[simp] theorem State.withWord_align (cw : CmdWord) : (s.withWord cw).align = s.align := rfl
@[simp] theorem State.withWord_pcount (cw : CmdWord) : (s.withWord cw).pcount = s.pcount := rfl
@[simp] theorem State.withWord_status (cw : CmdWord) : (s.withWord cw).status = s.status := rfl
@[simp] theorem State.withWord_phase (cw : CmdWord) : (s.withWord cw).phase = .idle := rfl
@[simp] theorem State.withWord_rp (cw : CmdWord) : (s.withWord cw).rp = s.rp := rfl
@[simp] theorem State.withWord_rr (cw : CmdWord) : (s.withWord cw).rr = s.rr := rfl
@[simp] theorem State.withWord_offered (cw : CmdWord) : (s.withWord cw).offered = cw :: s.offered := rfl
@[simp] theorem State.withWord_responses (cw : CmdWord) : (s.withWord cw).responses = s.responses := rfl
@[simp] theorem State.withWord_requests (cw : CmdWord) : (s.withWord cw).requests = s.requests := rfl
@[simp] theorem State.withWord_agenda (cw : CmdWord) : (s.withWord cw).agenda = .fbc :: s.agenda := rfl
@[simp] theorem State.withWord_freeIx (cw : CmdWord) : (s.withWord cw).freeIx = s.freeIx := rfl
@[simp] theorem State.withWord_lost (cw : CmdWord) : (s.withWord cw).lost = s.lost := rfl

end Fields

end Sys2Proof.Machine
end

