-- ==== Sys2Proof/Laws/Ops.lean ====
section
/-! SUPPORT. What each shared operation can do, said once: operands, flags, responses, the slice, the merge. -/

namespace Sys2Proof.Machine

/-! Parameters and operands. -/

theorem Config.one_le_pmax : 1 ≤ Config.pmax := Nat.le_add_left 1 _

theorem Config.pmax_le : Config.pmax ≤ 65536 := by
  unfold Config.pmax
  omega

@[simp] theorem zext24_toNat {v : Nat} (h : v < 2 ^ 24) : (zext24 v).toNat = v := by
  simp only [zext24, if_pos h, BitVec.toNat_ofNat]
  exact Nat.mod_eq_of_lt h

theorem grow_eq_mod (g : Glyph) (r : Fin 8) : grow g r = g.rows[r].toNat % 2 ^ g.width.toNat :=
  Nat.and_two_pow_sub_one_eq_mod _ _

theorem grow_bound (g : Glyph) (r : Fin 8) : grow g r < 2 ^ g.width.toNat := by
  rw [grow_eq_mod]
  exact Nat.mod_lt _ (Nat.two_pow_pos _)

/-- Every code but 3 is some mode's, and the mode gives the code back. -/
theorem Align.ofCode_cases (code : BitVec 2) :
    (code = 3#2 ∧ Align.ofCode code = none) ∨
      (code ≠ 3#2 ∧ ∃ a, Align.ofCode code = some a ∧ a.code = code) := by
  revert code
  decide

/-! Responses. -/

@[simp] theorem Rsp.make_true_zero : Rsp.make true 0 = 0x80000000#32 := by decide

@[simp] theorem Rsp.make_false_zero : Rsp.make false 0 = 0x00000000#32 := by decide

/-- The bits of a response (R86). -/
theorem Rsp.make_bit (b : Bool) (d : BitVec 24) (k : Nat) :
    (Rsp.make b d).getLsbD k = if k < 24 then d.getLsbD k else (decide (k = 31) && b) := by
  change (BitVec.ofBool b ++ 0#7 ++ d : BitVec (1 + 7 + 24)).getLsbD k = _
  rw [BitVec.getLsbD_append, BitVec.getLsbD_append, BitVec.getLsbD_ofBool]
  by_cases h : k < 24
  · simp [h]
  · by_cases h2 : k < 31
    · have h3 : k - 24 < 7 := by omega
      have h4 : k ≠ 31 := by omega
      simp [h, h3, h4]
    · have h3 : ¬ k - 24 < 7 := by omega
      have h4 : (k - 24 - 7 = 0) ↔ k = 31 := by omega
      simp [h, h3, h4]

@[simp] theorem Rsp.rej_make (b : Bool) (d : BitVec 24) : Rsp.rej (Rsp.make b d) = b := by
  rw [Rsp.rej, Rsp.make_bit]
  simp

@[simp] theorem Rsp.data_make (b : Bool) (d : BitVec 24) : Rsp.data (Rsp.make b d) = d := by
  apply BitVec.eq_of_getLsbD_eq
  intro k hk
  simp [Rsp.data, Rsp.make_bit, hk]

/-- `RSP[30:24]` is 0 (R86). -/
@[simp] theorem Rsp.reserved_make (b : Bool) (d : BitVec 24) : (Rsp.make b d).extractLsb' 24 7 = 0 := by
  apply BitVec.eq_of_getLsbD_eq
  intro k hk
  have h : ¬ 24 + k = 31 := by omega
  simp [BitVec.getLsbD_extractLsb', Rsp.make_bit, h]

/-- `respond` answers a next state, the same but for one response. -/
@[simp] theorem respond_next (d : BitVec 24) (s t : State) : respond d s = .next t ↔ s.sendRsp false d = t := by
  simp [respond]

/-- `reject` answers a next state, the same but for one flag and one response. -/
@[simp] theorem reject_next (f : Flag) (s t : State) : reject f s = .next t ↔ s.rejected f = t := by
  simp [reject]

/-! Flags. -/

theorem Flag.mask_bit (f : Flag) (k : Nat) : f.mask.getLsbD k = decide (k = f.bit) := by
  by_cases hk : k < 8
  · have : ∀ f : Flag, ∀ k : Fin 8, f.mask.getLsbD k.val = decide (k.val = f.bit) := by
      intro f
      cases f <;> decide
    exact this f ⟨k, hk⟩
  · have hb : f.bit < 8 := by cases f <;> decide
    rw [BitVec.getLsbD_of_ge _ _ (by omega)]
    exact (decide_eq_false (by omega)).symm

/-- Setting a flag sets its bit and leaves every other bit (R27). -/
theorem setFlag_bit (f : Flag) (s : State) (k : Nat) :
    (s.setFlag f).status.getLsbD k = (s.status.getLsbD k || decide (k = f.bit)) := by
  simp [Flag.mask_bit]

theorem Flag.mask_reserved (f : Flag) : f.mask &&& 0xC0 = 0 := by
  cases f <;> decide

/-! The buffer and the slice. -/

@[simp] theorem merge_row (g : Glyph) (s : State) (r : Fin 8) :
    (s.merge g).rows[r] = s.rows[r] ||| (grow g r <<< s.cursor) := by
  simp [State.merge]

@[simp] theorem cleared_row (s : State) (r : Fin 8) : s.cleared.rows[r] = 0 := by
  simp [State.cleared]

/-- The leftover width where `CURSOR <= W` (R143). -/
theorem leftover_of_le {s : State} (h : s.cursor ≤ s.totalWidth) : s.leftover = s.totalWidth - s.cursor := if_pos h

/-- The shift is at most the leftover width (R144). -/
theorem shift_le_leftover (s : State) : s.shift ≤ s.leftover := by
  unfold State.shift
  split <;> omega

/-- Bit `j` of a panel byte is aligned column `8p + j` (R161). -/
theorem pbyte_bit (s : State) (p : Nat) (r : Fin 8) (j : Nat) (hj : j < 8) :
    (s.pbyte p r).getLsbD j = (s.aligned r).testBit (8 * p + j) := by
  have h : (255 : Nat) = 2 ^ 8 - 1 := by decide
  rw [State.pbyte, BitVec.getLsbD_ofNat, h, Nat.testBit_and, Nat.testBit_two_pow_sub_one, Nat.testBit_shiftRight]
  simp [hj]

/-! The sequencer. -/

/-- What follows an OK while rendering: the next row, the next panel, or the end (R182). -/
theorem renderNext_cases (s : State) :
    (s.rr ≠ 7 ∧ s.renderNext = s.sendRow s.rp (s.rr + 1)) ∨
      (s.rr = 7 ∧ s.rp + 1 < s.pcount ∧ s.renderNext = s.sendRow (s.rp + 1) 0) ∨
      (s.rr = 7 ∧ s.pcount ≤ s.rp + 1 ∧ s.renderNext = s.renderDone) := by
  by_cases h : s.rr = 7
  · by_cases h2 : s.rp + 1 < s.pcount
    · exact .inr (.inl ⟨h, h2, by simp [State.renderNext, h, h2]⟩)
    · exact .inr (.inr ⟨h, by omega, by simp [State.renderNext, h, h2]⟩)
  · exact .inl ⟨h, by simp [State.renderNext, h]⟩

/-- What a QUERY answered with a count does (R265). -/
theorem latchCount_cases (n : Nat) (s : State) :
    ((1 ≤ n ∧ n ≤ Config.pmax) ∧ s.latchCount n = s.endReset n) ∨
      (¬ (1 ≤ n ∧ n ≤ Config.pmax) ∧ s.latchCount n = (s.setFlag .cfgerr).endReset 0) := by
  by_cases h : 1 ≤ n ∧ n ≤ Config.pmax
  · exact .inl ⟨h, if_pos h⟩
  · exact .inr ⟨h, if_neg h⟩

end Sys2Proof.Machine
end

