-- ==== Sys2Proof/Laws/PerInstr.lean ====
section
/-! SUPPORT. Statements for all commands, made per command: the word of each command has its opcode in `CW[3:0]`, its
argument in `CW[7:4]` and its payload in `CW[71:8]` (R71, R72). -/

namespace Sys2Proof.Laws.FieldPlaces

/-- The three fields of the command's word are where R71 puts them. -/
def Statement (i : Instr) : Prop :=
  opField (encode i) = i.opcode ∧ argField (encode i) = i.argument ∧ payload (encode i) = i.payload

theorem ofFields_fields (op a : BitVec 4) (d : BitVec 64) :
    opField (ofFields op a d) = op ∧ argField (ofFields op a d) = a ∧ payload (ofFields op a d) = d :=
  ⟨opField_ofFields _ _ _, argField_ofFields _ _ _, payload_ofFields _ _ _⟩

theorem clear : Statement .clear := ofFields_fields _ _ _
theorem append (g : Glyph) : Statement (.append g) := ofFields_fields _ _ _
theorem setalign (code : BitVec 2) : Statement (.setalign code) := ofFields_fields _ _ _
theorem getalign : Statement .getalign := ofFields_fields _ _ _
theorem panelrow (r : Fin 8) (p : BitVec 16) : Statement (.panelrow r p) := ofFields_fields _ _ _
theorem render : Statement .render := ofFields_fields _ _ _
theorem getcursor : Statement .getcursor := ofFields_fields _ _ _
theorem getpcount : Statement .getpcount := ofFields_fields _ _ _
theorem getstatus : Statement .getstatus := ofFields_fields _ _ _

end Sys2Proof.Laws.FieldPlaces
end

