-- ==== Sys2Proof/Laws/Step.lean ====
section
/-! SUPPORT. What each meaning, each turn and each step can do, said once. -/

namespace Sys2Proof.Machine

/-- APPEND has three outcomes (R122). -/
theorem execAppend_cases (g : Glyph) (s : State) :
    ((g.width.toNat = 0 ∨ 8 < g.width.toNat) ∧ execAppend g s = .next (s.rejected .badw)) ∨
      ((1 ≤ g.width.toNat ∧ g.width.toNat ≤ 8) ∧ s.totalWidth < s.cursor + g.width.toNat ∧
        execAppend g s = .next (s.rejected .ovf)) ∨
      ((1 ≤ g.width.toNat ∧ g.width.toNat ≤ 8) ∧ s.cursor + g.width.toNat ≤ s.totalWidth ∧
        execAppend g s = .next ((s.merge g).sendRsp false 0)) := by
  by_cases h : g.width.toNat = 0 ∨ 8 < g.width.toNat
  · exact .inl ⟨h, by simp [execAppend, h, reject]⟩
  · by_cases h2 : s.totalWidth < s.cursor + g.width.toNat
    · exact .inr (.inl ⟨by omega, h2, by simp [execAppend, h, h2, reject]⟩)
    · exact .inr (.inr ⟨by omega, by omega, by simp [execAppend, h, h2, respond]⟩)

/-- SETALIGN has two outcomes (R141). -/
theorem execSetalign_cases (code : BitVec 2) (s : State) :
    (code = 3#2 ∧ execSetalign code s = .next (s.rejected .ill)) ∨
      (code ≠ 3#2 ∧ ∃ a : Align, a.code = code ∧
        execSetalign code s = .next (State.sendRsp false 0 { s with align := a })) := by
  rcases Align.ofCode_cases code with ⟨h, e⟩ | ⟨h, a, e, ha⟩
  · exact .inl ⟨h, by simp [execSetalign, e, reject]⟩
  · exact .inr ⟨h, a, ha, by simp [execSetalign, e, respond]⟩

/-- PANELROW has two outcomes (R162). -/
theorem execPanelrow_cases (r : Fin 8) (p : BitVec 16) (s : State) :
    (s.pcount ≤ p.toNat ∧ execPanelrow r p s = .next (s.rejected .range)) ∨
      (p.toNat < s.pcount ∧
        execPanelrow r p s = .next (s.sendRsp false (zext24 (s.pbyte p.toNat r).toNat))) := by
  by_cases h : s.pcount ≤ p.toNat
  · exact .inl ⟨h, by simp [execPanelrow, h, reject]⟩
  · exact .inr ⟨by omega, by simp [execPanelrow, h, respond]⟩

/-- RENDER has two outcomes (R182, R187). -/
theorem execRender_cases (s : State) :
    (s.pcount = 0 ∧ execRender s = .next s.renderDone) ∨
      (s.pcount ≠ 0 ∧ execRender s = .next (s.sendRow 0 0)) := by
  by_cases h : s.pcount = 0
  · exact .inl ⟨h, by simp [execRender, h]⟩
  · exact .inr ⟨h, by simp [execRender, h]⟩

/-- Every state a command can lead to: a rejection with one of four flags, a response that leaves the rest alone, or one of
the five effects (R121, R124, R141, R182). -/
theorem exec_cases {i : Instr} {s t : State} (h : exec i s = .next t) :
    (∃ f, (f = .ill ∨ f = .badw ∨ f = .ovf ∨ f = .range) ∧ t = s.rejected f) ∨
      (∃ d, t = s.sendRsp false d) ∨
      (i = .clear ∧ t = s.cleared.sendRsp false 0) ∨
      (∃ g, i = .append g ∧ (1 ≤ g.width.toNat ∧ g.width.toNat ≤ 8) ∧
        s.cursor + g.width.toNat ≤ s.totalWidth ∧ t = (s.merge g).sendRsp false 0) ∨
      (∃ a : Align, i = .setalign a.code ∧ t = State.sendRsp false 0 { s with align := a }) ∨
      (i = .render ∧ s.pcount = 0 ∧ t = s.renderDone) ∨
      (i = .render ∧ s.pcount ≠ 0 ∧ t = s.sendRow 0 0) := by
  cases i with
  | clear => exact .inr (.inr (.inl ⟨rfl, by simp only [exec, execClear, respond_next] at h; exact h.symm⟩))
  | append g =>
    rcases execAppend_cases g s with ⟨_, e⟩ | ⟨_, _, e⟩ | ⟨hw, hc, e⟩ <;> simp only [exec, e] at h <;> cases h
    · exact .inl ⟨.badw, by simp, rfl⟩
    · exact .inl ⟨.ovf, by simp, rfl⟩
    · exact .inr (.inr (.inr (.inl ⟨g, rfl, hw, hc, rfl⟩)))
  | setalign code =>
    rcases execSetalign_cases code s with ⟨_, e⟩ | ⟨_, a, rfl, e⟩ <;> simp only [exec, e] at h <;> cases h
    · exact .inl ⟨.ill, by simp, rfl⟩
    · exact .inr (.inr (.inr (.inr (.inl ⟨a, rfl, rfl⟩))))
  | getalign => exact .inr (.inl ⟨_, by simp only [exec, execGetalign, respond_next] at h; exact h.symm⟩)
  | panelrow r p =>
    rcases execPanelrow_cases r p s with ⟨_, e⟩ | ⟨_, e⟩ <;> simp only [exec, e] at h <;> cases h
    · exact .inl ⟨.range, by simp, rfl⟩
    · exact .inr (.inl ⟨_, rfl⟩)
  | render =>
    rcases execRender_cases s with ⟨hp, e⟩ | ⟨hp, e⟩ <;> simp only [exec, e] at h <;> cases h
    · exact .inr (.inr (.inr (.inr (.inr (.inl ⟨rfl, hp, rfl⟩)))))
    · exact .inr (.inr (.inr (.inr (.inr (.inr ⟨rfl, hp, rfl⟩)))))
  | getcursor => exact .inr (.inl ⟨_, by simp only [exec, execGetcursor, respond_next] at h; exact h.symm⟩)
  | getpcount => exact .inr (.inl ⟨_, by simp only [exec, execGetpcount, respond_next] at h; exact h.symm⟩)
  | getstatus => exact .inr (.inl ⟨_, by simp only [exec, execGetstatus, respond_next] at h; exact h.symm⟩)

/-- A decoded word runs its command. -/
theorem perform_decoded {cw : CmdWord} {i : Instr} (h : decode cw = some i) (s : State) : perform cw s = exec i s := by
  simp [perform, h]

/-- A word that decodes to `Illegal` is rejected with ILL (R83). -/
theorem perform_illegal {cw : CmdWord} (h : decode cw = none) (s : State) :
    perform cw s = .next (s.rejected .ill) := by
  simp [perform, h, rejectIllegal, reject]

/-- What the FBC's turn can lead to (R33, R262). -/
theorem fbcTurn_cases {s t : State} (h : fbcTurn s = .next t) :
    (s.phase = .resetSeq .start ∧ t = s.sendInit) ∨
      (s.phase ≠ .resetSeq .start ∧ s.phase ≠ .idle ∧ t = s) ∨
      (s.phase = .idle ∧ s.offered = [] ∧ t = s) ∨
      (s.phase = .idle ∧ ∃ cw rest, s.offered = cw :: rest ∧
        ((∃ i, decode cw = some i ∧ exec i { s with offered := rest } = .next t) ∨
          (decode cw = none ∧ t = State.rejected .ill { s with offered := rest }))) := by
  unfold fbcTurn at h
  split at h
  · rename_i hp
    cases h
    exact .inl ⟨hp, rfl⟩
  · rename_i hp
    cases h
    exact .inr (.inl ⟨by simp [hp], by simp [hp], rfl⟩)
  · rename_i hp
    cases h
    exact .inr (.inl ⟨by simp [hp], by simp [hp], rfl⟩)
  · rename_i hp
    cases h
    exact .inr (.inl ⟨by simp [hp], by simp [hp], rfl⟩)
  · rename_i hp
    split at h
    · rename_i ho
      cases h
      exact .inr (.inr (.inl ⟨hp, ho, rfl⟩))
    · rename_i cw rest ho
      refine .inr (.inr (.inr ⟨hp, cw, rest, ho, ?_⟩))
      cases hd : decode cw with
      | none =>
        rw [perform_illegal hd] at h
        cases h
        exact .inr ⟨rfl, rfl⟩
      | some i =>
        rw [perform_decoded hd] at h
        exact .inl ⟨i, rfl, h⟩

/-- What the driver's turn can lead to (R262 to R265, R182, R184; else nothing). -/
theorem driverAnswers_cases (a : DrvAns) (s : State) :
    (s.phase = .resetSeq .initSent ∧ a = .ok ∧ s.driverAnswers a = s.sendQuery) ∨
      ((s.phase = .resetSeq .initSent ∨ s.phase = .resetSeq .querySent) ∧ a = .fail ∧
        s.driverAnswers a = s.resetFailed) ∨
      (s.phase = .resetSeq .querySent ∧ ∃ n, a = .count n ∧ s.driverAnswers a = s.latchCount n.toNat) ∨
      (s.phase = .rendering ∧ a = .ok ∧ s.driverAnswers a = s.renderNext) ∨
      (s.phase = .rendering ∧ a = .fail ∧ s.driverAnswers a = s.renderAborted) ∨
      s.driverAnswers a = s := by
  unfold State.driverAnswers
  split <;> simp_all

/-- A step is a turn of one agent, in the state without that turn. -/
theorem step_cases {s t : State} (h : step s = .next t) :
    (s.nextTurn.1 = .fbc ∧ fbcTurn { s with agenda := s.nextTurn.2 } = .next t) ∨
      (∃ cw, s.nextTurn.1 = .host cw ∧ t = State.hostOffers cw { s with agenda := s.nextTurn.2 }) ∨
      (∃ a, s.nextTurn.1 = .driver a ∧ t = State.driverAnswers a { s with agenda := s.nextTurn.2 }) ∨
      (∃ a, s.nextTurn.1 = .lateDriver a ∧ t = { s with agenda := s.nextTurn.2 }) ∨
      (s.nextTurn.1 = .platform ∧ t = State.assertReset { s with agenda := s.nextTurn.2 }) := by
  unfold step State.takeTurn at h
  split at h <;> rename_i hn
  · exact .inl ⟨hn, h⟩
  · exact .inr (.inl ⟨_, hn, by cases h; rfl⟩)
  · exact .inr (.inr (.inl ⟨_, hn, by cases h; rfl⟩))
  · exact .inr (.inr (.inr (.inl ⟨_, hn, by cases h; rfl⟩)))
  · exact .inr (.inr (.inr (.inr ⟨hn, by cases h; rfl⟩)))

/-- A command leaves the turns to come alone. -/
theorem exec_agenda {i : Instr} {s t : State} (h : exec i s = .next t) : t.agenda = s.agenda := by
  rcases exec_cases h with ⟨_, _, rfl⟩ | ⟨_, rfl⟩ | ⟨_, rfl⟩ | ⟨_, _, _, _, rfl⟩ | ⟨_, _, rfl⟩ | ⟨_, _, rfl⟩ | ⟨_, _, rfl⟩ <;>
    rfl

/-- A step takes its turn off the agenda and leaves the turns after it. -/
theorem step_agenda {s t : State} (h : step s = .next t) : t.agenda = s.nextTurn.2 := by
  rcases step_cases h with ⟨_, h⟩ | ⟨_, _, rfl⟩ | ⟨a, _, rfl⟩ | ⟨_, _, rfl⟩ | ⟨_, rfl⟩
  · rcases fbcTurn_cases h with ⟨_, rfl⟩ | ⟨_, _, rfl⟩ | ⟨_, _, rfl⟩ | ⟨_, _, _, _, ⟨_, _, h⟩ | ⟨_, rfl⟩⟩
    · rfl
    · rfl
    · rfl
    · exact exec_agenda h
    · rfl
  · rfl
  · rcases driverAnswers_cases a { s with agenda := s.nextTurn.2 } with
      ⟨_, _, e⟩ | ⟨_, _, e⟩ | ⟨_, n, _, e⟩ | ⟨_, _, e⟩ | ⟨_, _, e⟩ | e <;> rw [e]
    · rfl
    · rfl
    · rcases latchCount_cases n.toNat { s with agenda := s.nextTurn.2 } with ⟨_, e⟩ | ⟨_, e⟩ <;> rw [e] <;> rfl
    · rcases renderNext_cases { s with agenda := s.nextTurn.2 } with ⟨_, e⟩ | ⟨_, _, e⟩ | ⟨_, _, e⟩ <;> rw [e] <;> rfl
    · rfl
  · rfl
  · rfl

/-- A turn of the driver is the next step's. -/
theorem step_driver {s : State} {a : DrvAns} {turns : List Turn} (h : s.nextTurn = (.driver a, turns)) :
    step s = .next (State.driverAnswers a { s with agenda := turns }) := by
  simp [step, h, State.takeTurn]

/-- A turn of the FBC is the next step's. -/
theorem step_fbc {s : State} {turns : List Turn} (h : s.nextTurn = (.fbc, turns)) :
    step s = fbcTurn { s with agenda := turns } := by
  simp [step, h, State.takeTurn]

end Sys2Proof.Machine
end

