-- ==== Sys2Proof/Laws/Safety.lean ====
section
/-! SUPPORT. Lemmas about the terms that claims use: rejections, runs, sums of rows, the order of a RENDER, fields of words. -/

namespace Sys2Proof.Machine

/-- What `reject` leaves is a rejection as R221 describes it. -/
theorem rejected_from (f : Flag) (s : State) : s.RejectedFrom f (s.rejected f) where
  buffer := ⟨rfl, rfl, rfl, rfl⟩
  ports := ⟨rfl, rfl, rfl, rfl⟩
  flag_set := by simp [State.hasFlag, Flag.mask_bit]
  other_bits k hk := by simp [Flag.mask_bit, hk]
  response := by rw [State.rejected_responses, Rsp.make_true_zero]

/-- A step in which the FBC accepts a word performs it. -/
theorem step_accepts {s s' : State} {cw : CmdWord} (h : s.Accepts cw s') : step s = perform cw s' := by
  obtain ⟨hp, rest, turns, ho, hn, rfl⟩ := h
  simp [step, hn, State.takeTurn, fbcTurn, hp, ho]

theorem runSteps_next {s t : State} (h : step s = .next t) (k : Nat) : runSteps (k + 1) s = runSteps k t := by
  simp [runSteps, h]

/-- A run of `j + k` steps is a run of `j` steps and then one of `k`. -/
theorem runSteps_add {j : Nat} : ∀ {s t : State}, runSteps j s = .next t → ∀ k, runSteps (j + k) s = runSteps k t := by
  induction j with
  | zero =>
    intro s t h k
    cases h
    rw [Nat.zero_add]
  | succ j ih =>
    intro s t h k
    rw [runSteps] at h
    split at h
    · rename_i u hu
      rw [Nat.succ_add, runSteps_next hu, ih h]
    · cases h
    · cases h

/-! The words that turns offer. -/

@[simp] theorem hostWords_nil : hostWords [] = [] := rfl
@[simp] theorem hostWords_host (cw : CmdWord) (ts : List Turn) : hostWords (.host cw :: ts) = cw :: hostWords ts := rfl
@[simp] theorem hostWords_fbc (ts : List Turn) : hostWords (.fbc :: ts) = hostWords ts := rfl
@[simp] theorem hostWords_driver (a : DrvAns) (ts : List Turn) : hostWords (.driver a :: ts) = hostWords ts := rfl
@[simp] theorem hostWords_lateDriver (a : DrvAns) (ts : List Turn) : hostWords (.lateDriver a :: ts) = hostWords ts := rfl
@[simp] theorem hostWords_platform (ts : List Turn) : hostWords (.platform :: ts) = hostWords ts := rfl
@[simp] theorem hostWords_append (ts us : List Turn) : hostWords (ts ++ us) = hostWords ts ++ hostWords us :=
  List.filterMap_append

/-- The words of the turns to come are those of the next turn and of the turns after it. -/
theorem hostWords_agenda (s : State) : hostWords s.agenda = hostWords [s.nextTurn.1] ++ hostWords s.nextTurn.2 := by
  unfold State.nextTurn
  split
  · rename_i h
    rw [h]
    rfl
  · rename_i t rest h
    rw [h, ← hostWords_append]
    rfl

/-- What a step in RENDERING can do, a reset apart (R182, R183, R271). -/
theorem step_rendering_cases {s t : State} (hp : s.phase = .rendering) (hn : s.nextTurn.1 ≠ .platform)
    (h : step s = .next t) :
    (s.nextTurn.1 ≠ .driver .ok ∧ s.nextTurn.1 ≠ .driver .fail ∧
        t = { s with agenda := s.nextTurn.2, offered := s.offered ++ hostWords [s.nextTurn.1] }) ∨
      (s.nextTurn.1 = .driver .ok ∧ t = State.renderNext { s with agenda := s.nextTurn.2 }) ∨
      (s.nextTurn.1 = .driver .fail ∧ t = State.renderAborted { s with agenda := s.nextTurn.2 }) := by
  rcases step_cases h with ⟨h1, h⟩ | ⟨cw, h1, rfl⟩ | ⟨a, h1, rfl⟩ | ⟨a, h1, rfl⟩ | ⟨h1, rfl⟩
  · simp only [fbcTurn, hp] at h
    cases h
    exact .inl ⟨by simp [h1], by simp [h1], by simp [h1, hp]⟩
  · exact .inl ⟨by simp [h1], by simp [h1], by simp [h1, State.hostOffers]⟩
  · cases a with
    | ok => exact .inr (.inl ⟨h1, by simp only [State.driverAnswers, hp]⟩)
    | count n => exact .inl ⟨by simp [h1], by simp [h1], by simp [State.driverAnswers, hp, h1]⟩
    | fail => exact .inr (.inr ⟨h1, by simp only [State.driverAnswers, hp]⟩)
  · exact .inl ⟨by simp [h1], by simp [h1], by simp [h1]⟩
  · exact absurd h1 hn

/-! Which commands are unanswered, by the phase: the words on offer, and the RENDER in progress. -/

@[simp] theorem unanswered_idle {s : State} (h : s.phase = .idle) : s.unanswered = s.offered.length := by
  simp [State.unanswered, h]

@[simp] theorem unanswered_rendering {s : State} (h : s.phase = .rendering) : s.unanswered = s.offered.length + 1 := by
  simp [State.unanswered, h]

@[simp] theorem unanswered_resetSeq {s : State} {place : ResetStep} (h : s.phase = .resetSeq place) :
    s.unanswered = s.offered.length := by
  simp [State.unanswered, h]

/-- A command performed in IDLE is answered, or is the RENDER in progress: it stays counted (R86). -/
theorem exec_commandCount {i : Instr} {s t : State} (hp : s.phase = .idle) (h : exec i s = .next t) :
    t.commandCount = s.commandCount + 1 := by
  rcases exec_cases h with ⟨f, _, rfl⟩ | ⟨d, rfl⟩ | ⟨_, rfl⟩ | ⟨g, _, _, _, rfl⟩ | ⟨a, _, rfl⟩ | ⟨_, _, rfl⟩ | ⟨_, _, rfl⟩ <;>
    simp [State.commandCount, State.unanswered, hp] <;> omega

/-- A step counts one command more when the host offers one, else none: commands are answered, unanswered or lost, and none is
forgotten (R86, R260, R271). -/
theorem step_commandCount {s t : State} (h : step s = .next t) :
    t.commandCount = s.commandCount + (hostWords [s.nextTurn.1]).length := by
  rcases step_cases h with ⟨h1, h⟩ | ⟨cw, h1, rfl⟩ | ⟨a, h1, rfl⟩ | ⟨a, h1, rfl⟩ | ⟨h1, rfl⟩ <;> rw [h1]
  · rcases fbcTurn_cases h with ⟨hp, rfl⟩ | ⟨_, _, rfl⟩ | ⟨_, _, rfl⟩ | ⟨hp, cw, rest, ho, h⟩
    · have hp : s.phase = _ := hp
      simp [State.commandCount, State.unanswered, hp]
    · rfl
    · rfl
    · have hp : s.phase = .idle := hp
      have ho : s.offered = cw :: rest := ho
      have hs : s.commandCount = State.commandCount { s with offered := rest, agenda := s.nextTurn.2 } + 1 := by
        simp [State.commandCount, State.unanswered, hp, ho]
        omega
      rcases h with ⟨i, _, h⟩ | ⟨_, rfl⟩
      · rw [exec_commandCount (by exact hp) h, hs]
        rfl
      · rw [hs]
        simp [State.commandCount, State.unanswered, hp]
        omega
  · by_cases hp : s.phase = .rendering <;> simp [State.commandCount, State.unanswered, State.hostOffers, hp] <;> omega
  · rcases driverAnswers_cases a { s with agenda := s.nextTurn.2 } with
      ⟨hp, _, e⟩ | ⟨hp, _, e⟩ | ⟨hp, n, _, e⟩ | ⟨hp, _, e⟩ | ⟨hp, _, e⟩ | e <;> rw [e]
    · have hp : s.phase = _ := hp
      simp [State.commandCount, State.unanswered, hp]
    · have hp : s.phase = _ ∨ s.phase = _ := hp
      rcases hp with hp | hp <;> simp [State.commandCount, State.unanswered, hp]
    · have hp : s.phase = _ := hp
      rcases latchCount_cases n.toNat { s with agenda := s.nextTurn.2 } with ⟨_, e⟩ | ⟨_, e⟩ <;> rw [e] <;>
        simp [State.commandCount, State.unanswered, hp]
    · have hp : s.phase = _ := hp
      rcases renderNext_cases { s with agenda := s.nextTurn.2 } with ⟨_, e⟩ | ⟨_, _, e⟩ | ⟨_, _, e⟩ <;> rw [e] <;>
        simp [State.commandCount, State.unanswered, hp]
      omega
    · have hp : s.phase = _ := hp
      simp [State.commandCount, State.unanswered, hp]
      omega
    · rfl
  · rfl
  · simp [State.commandCount, State.unanswered, State.assertReset, State.reset]
    omega

/-- Counted over a whole run: the commands counted and the words still to be offered are those of its beginning. -/
theorem runSteps_commandCount : ∀ (k : Nat) {s t : State}, runSteps k s = .next t →
    t.commandCount + (hostWords t.agenda).length = s.commandCount + (hostWords s.agenda).length := by
  intro k
  induction k with
  | zero =>
    intro s t h
    cases h
    rfl
  | succ k ih =>
    intro s t h
    rw [runSteps] at h
    split at h
    · rename_i u hu
      rw [ih h, step_commandCount hu, step_agenda hu, hostWords_agenda s, List.length_append]
      omega
    · cases h
    · cases h

theorem execAll_next {i : Instr} {s t : State} (h : exec i s = .next t) (is : List Instr) :
    execAll (i :: is) s = execAll is t := by
  simp [execAll, h]

/-- An OR of bits that lie above all bits set is a sum (R128). -/
theorem or_shiftLeft_eq_add {a c : Nat} (h : a < 2 ^ c) (b : Nat) : a ||| (b <<< c) = a + b * 2 ^ c := by
  rw [Nat.shiftLeft_eq, Nat.or_comm, Nat.mul_comm, ← Nat.two_pow_add_eq_or_of_lt h]
  omega

/-- A panel byte as arithmetic (R161). -/
theorem pbyte_toNat (s : State) (p : Nat) (r : Fin 8) : (s.pbyte p r).toNat = s.aligned r / 2 ^ (8 * p) % 256 := by
  have h : (255 : Nat) = 2 ^ 8 - 1 := by decide
  rw [State.pbyte, h, Nat.and_two_pow_sub_one_eq_mod, Nat.shiftRight_eq_div_pow]
  simp

/-- The `m`-th byte that a RENDER sends is row `m mod 8` of panel `m / 8` (R185). -/
theorem renderOrder_eq (n : Nat) :
    renderOrder n = (List.range (8 * n)).map fun m => (m / 8, Fin.ofNat 8 m) := by
  induction n with
  | zero => rfl
  | succ n ih =>
    have h : ∀ k, k < 8 → ∀ f : Fin 8, f.val = k → (n, f) = ((8 * n + k) / 8, Fin.ofNat 8 (8 * n + k)) := by
      intro k hk f hf
      refine Prod.ext ?_ (Fin.ext ?_)
      · change n = _
        omega
      · simp
        omega
    rw [renderOrder, List.range_succ, List.flatMap_append, ← renderOrder, ih, Nat.mul_succ, List.range_add,
      List.map_append]
    congr 1
    rw [show List.finRange 8 = [0, 1, 2, 3, 4, 5, 6, 7] by decide, show List.range 8 = [0, 1, 2, 3, 4, 5, 6, 7] by decide]
    simp only [List.flatMap_cons, List.flatMap_nil, List.map_cons, List.map_nil, List.append_nil]
    rw [← h 0 (by decide) 0 rfl, ← h 1 (by decide) 1 rfl, ← h 2 (by decide) 2 rfl, ← h 3 (by decide) 3 rfl,
      ← h 4 (by decide) 4 rfl, ← h 5 (by decide) 5 rfl, ← h 6 (by decide) 6 rfl, ← h 7 (by decide) 7 rfl]

/-- The leftover width depends on the buffer alone (R143). -/
theorem leftover_congr {s t : State} (h : s.SameBuffer t) : t.leftover = s.leftover := by
  unfold State.leftover State.totalWidth
  rw [h.cursor, h.pcount]

/-- A panel byte depends on the buffer alone (R183). -/
theorem pbyte_congr {s t : State} (h : s.SameBuffer t) (p : Nat) (r : Fin 8) : t.pbyte p r = s.pbyte p r := by
  simp only [State.pbyte, State.aligned, State.shift, leftover_congr h, h.rows, h.align]

/-- The request a state sends for a byte depends on the buffer alone (R183). -/
theorem rowset_congr {s t : State} (h : s.SameBuffer t) (p : Nat) (r : Fin 8) : t.rowset p r = s.rowset p r := by
  simp only [State.rowset, pbyte_congr h]

/-- The invariant speaks of the buffer, the flags, the phase and `RP` alone. -/
theorem State.Inv.congr {s t : State} (h : s.Inv) (hb : s.SameBuffer t) (hs : t.status = s.status)
    (hp : t.phase = s.phase) (hr : t.rp = s.rp) : t.Inv where
  cursor_le := by simpa only [State.totalWidth, hb.cursor, hb.pcount] using h.cursor_le
  rows_lt := by simpa only [hb.rows, hb.cursor] using h.rows_lt
  pcount_le := by simpa only [hb.pcount] using h.pcount_le
  status_reserved := by simpa only [hs] using h.status_reserved
  render_panel := by simpa only [hp, hr, hb.pcount] using h.render_panel
  rp_lt := by simpa only [hr] using h.rp_lt
  in_reset := by simpa only [hp, hb.cursor, hb.align, hs] using h.in_reset
  failed_chain := by simpa only [State.hasFlag, hp, hb.pcount, hs] using h.failed_chain

end Sys2Proof.Machine

namespace Sys2Proof

theorem ofFields_inj {o a o' a' : BitVec 4} {d d' : BitVec 64} :
    ofFields o a d = ofFields o' a' d' ↔ o = o' ∧ a = a' ∧ d = d' := by
  constructor
  · intro h
    exact ⟨by simpa using congrArg opField h, by simpa using congrArg argField h, by simpa using congrArg payload h⟩
  · rintro ⟨rfl, rfl, rfl⟩
    rfl

theorem and_ofFields (o a o' a' : BitVec 4) (d d' : BitVec 64) :
    ofFields o a d &&& ofFields o' a' d' = ofFields (o &&& o') (a &&& a') (d &&& d') := by
  apply BitVec.eq_of_getLsbD_eq
  intro k hk
  simp only [BitVec.getLsbD_and, ofFields_bit]
  split <;> [skip; split] <;> simp

end Sys2Proof
end

