-- ==== Sys2Proof/Tests/Slice0.lean ====
section
/-! SUPPORT. The model's own tests: ill-formed terms that the checks refuse, words written out from the encodings, one step at a
time against 95_test_vectors.md (sections V2.1 to V2.8), and for each statement with hypotheses a witness that meets them. -/

namespace Sys2Proof.Tests

open Sys2Proof.Machine

/-! ## Helpers -/

/-- The state a result answers. -/
def after : Result → Option State
  | .next t => some t
  | .fault _ => none
  | .refused _ => none

/-- An FBC in IDLE with `p` panels, the cursor at `c`, every row holding `row`. -/
def chain (p c row : Nat) (a : Align) : State :=
  { State.reset with phase := .idle, pcount := p, cursor := c, rows := Vector.replicate 8 row, align := a }

/-- A glyph with the same byte in every row. -/
def block (w : BitVec 4) (b : Byte) : Glyph := { width := w, rows := Vector.replicate 8 b }

/-- A state in which word `cw` is on the port and it is the FBC's turn. -/
def offering (cw : CmdWord) (s : State) : State := { s with phase := .idle, offered := [cw], agenda := [.fbc] }

/-- A state in a phase, whose next turn is `x`. -/
def facing (ph : Phase) (x : Turn) (p : Nat) : State := { State.reset with phase := ph, agenda := [x], pcount := p }

theorem offering_accepts (cw : CmdWord) (s : State) :
    (offering cw s).Accepts cw { s with phase := .idle, offered := [], agenda := [] } :=
  ⟨rfl, [], [], rfl, rfl, rfl⟩

/-! ## Well-formedness: each check refuses an ill-formed term -/

theorem test_glyph_width_0 : (block 0 0xFF).valid = false := by decide
theorem test_glyph_width_9 : (block 9 0xFF).valid = false := by decide
theorem test_glyph_width_8 : (block 8 0xFF).valid = true := by decide
theorem test_append_ill_formed : Instr.wellFormed (.append (block 9 0)) = false := by decide
theorem test_setalign_ill_formed : Instr.wellFormed (.setalign 3) = false := by decide
theorem test_asm_width_16 : AsmLine.wellFormed (.append 16 [0, 0, 0, 0, 0, 0, 0, 0]) = false := by decide
theorem test_asm_seven_rows : AsmLine.wellFormed (.append 8 [0, 0, 0, 0, 0, 0, 0]) = false := by decide
theorem test_asm_row_256 : AsmLine.wellFormed (.append 8 [0, 0, 0, 0, 0, 0, 0, 256]) = false := by decide
theorem test_asm_code_4 : AsmLine.wellFormed (.setalign (.raw 4)) = false := by decide
theorem test_asm_panel_65536 : AsmLine.wellFormed (.panelrow 65536 0) = false := by decide
theorem test_asm_row_8 : AsmLine.wellFormed (.panelrow 0 8) = false := by decide
theorem test_asm_word_73_bits : AsmLine.wellFormed (.cw (2 ^ 72)) = false := by decide
theorem test_asm_putc_letter : AsmLine.wellFormed (.putc 'A') = false := by decide
theorem test_asm_show_letter : AsmLine.wellFormed (.showText ['1', 'A']) = false := by decide

/-! ## Decoding: words written out field by field from R71 to R76, and from 95_test_vectors.md -/

theorem test_decode_clear : decode (0#64 ++ 0b0000#4 ++ 0b0001#4) = some .clear := by decide
/-- P1's colon: width 2, rows 0,0,1,0,0,1,0,0. -/
theorem test_decode_append :
    decode (0b00000000#8 ++ 0b00000000#8 ++ 0b00000001#8 ++ 0b00000000#8 ++ 0b00000000#8 ++ 0b00000001#8 ++
      0b00000000#8 ++ 0b00000000#8 ++ 0b0010#4 ++ 0b0010#4) =
      some (.append { width := 2, rows := #v[0, 0, 1, 0, 0, 1, 0, 0] }) := by decide
/-- P2's digit 1. -/
theorem test_decode_append_p2 :
    decode 0x000E040404040C0452#72 =
      some (.append { width := 5, rows := #v[0x04, 0x0C, 0x04, 0x04, 0x04, 0x04, 0x0E, 0x00] }) := by decide
theorem test_decode_setalign : decode (0#64 ++ 0b00#2 ++ 0b10#2 ++ 0b0011#4) = some (.setalign 2) := by decide
theorem test_decode_getalign : decode (0#64 ++ 0b0000#4 ++ 0b0100#4) = some .getalign := by decide
/-- Panel 0x0102, row 5. -/
theorem test_decode_panelrow :
    decode (0#48 ++ 0b0000000100000010#16 ++ 0b0#1 ++ 0b101#3 ++ 0b0101#4) = some (.panelrow 5 0x0102) := by decide
theorem test_decode_render : decode (0#64 ++ 0b0000#4 ++ 0b0110#4) = some .render := by decide
theorem test_decode_getcursor : decode (0#64 ++ 0b0000#4 ++ 0b0111#4) = some .getcursor := by decide
theorem test_decode_getpcount : decode (0#64 ++ 0b0000#4 ++ 0b1000#4) = some .getpcount := by decide
theorem test_decode_getstatus : decode (0#64 ++ 0b0000#4 ++ 0b1001#4) = some .getstatus := by decide
/-- V2.7a to V2.7e, V2.3d, V2.3e, V2.4d, V2.4e. -/
theorem test_decode_illegal :
    [0x000000000000000000#72, 0x00000000000000000A#72, 0xFFFFFFFFFFFFFFFFFF#72, 0x000000000000000011#72,
      0x800000000000000001#72, 0x000000000000000043#72, 0x000000000000000103#72, 0x000000000000000085#72,
      0x000000000001000005#72].map decode = List.replicate 9 none := by decide
/-- V2.3c, V2.7g: illegal by value, and decoded all the same. -/
theorem test_decode_illegal_by_value :
    decode 0x000000000000000033#72 = some (.setalign 3) ∧
      decode 0x0000000000000000F2#72 = some (.append (block 15 0)) := by decide
theorem test_decode_table_word : decodeTableWord 72 0x235 = some (.panelrow 3 2) := by decide
/-- R55: byte 0 first. -/
theorem test_bytes :
    bytesOfWord 0x001F08040201110E52#72 = [0x52, 0x0E, 0x11, 0x01, 0x02, 0x04, 0x08, 0x1F, 0x00] := by decide
theorem test_short_stream : decodeBytes [0x01, 0, 0, 0, 0, 0, 0, 0] = none := by decide

/-! ## The assembler (R88, R89) -/

theorem test_asm_text :
    assembleText [' ', 'p', 'a', 'n', 'e', 'l', 'R', 'O', 'W', ' ', '0', 'x', '2', ',', ' ', '3', ' ', ';', '!'] =
      some [0x000000000000000235#72] := by decide
theorem test_asm_text_error : assembleText ['R', 'E', 'N', 'D', 'E', 'R', ' ', '1'] = none := by decide

/-! ## One command at a time -/

/-- V2.2a. -/
theorem test_clear :
    (after (exec .clear (chain 1 5 0x1F .left))).map (fun t => (t.rows, t.cursor, t.align, t.responses)) =
      some (Vector.replicate 8 0, 0, .left, [0x00000000#32]) := by decide
/-- V2.2h, second command: columns 6 to 10. -/
theorem test_append_straddles :
    (after (exec (.append { width := 5, rows := #v[0x1F, 0, 0, 0, 0, 0, 0, 0] }) (chain 2 6 0 .center))).map
      (fun t => (t.rows, t.cursor, t.responses)) = some (#v[0x7C0, 0, 0, 0, 0, 0, 0, 0], 11, [0x00000000#32]) := by
  decide
/-- V2.2g: BADW alone, on a full buffer. -/
theorem test_append_priority :
    (after (exec (.append (block 12 0xFF)) (chain 1 8 0xFF .center))).map (fun t => (t.status, t.cursor, t.responses)) =
      some (0x02, 8, [0x80000000#32]) := by decide
/-- V2.3c. -/
theorem test_setalign_code_3 :
    (after (exec (.setalign 3) (chain 1 0 0 .right))).map (fun t => (t.align, t.status, t.responses)) =
      some (.right, 0x01, [0x80000000#32]) := by decide
/-- R141's example. -/
theorem test_setalign_right :
    (after (exec (.setalign 2) (chain 1 0 0 .center))).map (fun t => (t.align, t.status)) = some (.right, 0x00) := by
  decide
/-- V2.3a. -/
theorem test_getalign :
    (after (exec .getalign (chain 1 0 0 .center))).map (fun t => t.responses) = some [0x00000001#32] := by decide
/-- V2.4, LEFT, panel 1 of `0xABCDE`. -/
theorem test_panelrow_left :
    (after (exec (.panelrow 0 1) (chain 3 20 0xABCDE .left))).map (fun t => t.responses) = some [0x000000CD#32] := by
  decide
/-- V2.4, CENTER, panel 1. -/
theorem test_panelrow_center :
    (after (exec (.panelrow 0 1) (chain 3 20 0xABCDE .center))).map (fun t => t.responses) = some [0x000000F3#32] := by
  decide
/-- P1's RENDER begins (CENTER shift 2 on row 0 of one panel). -/
theorem test_render_first :
    (after (exec .render (chain 1 3 0x1 .center))).map (fun t => (t.phase, t.requests, t.responses)) =
      some (.rendering, [.rowset 1 0x04 1], []) := by decide
/-- V2.5d: the 11th answer, FAIL, for panel 2, row 3. -/
theorem test_render_fails :
    (after (step { chain 2 0 0 .center with phase := .rendering, rp := 1, rr := 2, agenda := [.driver .fail] })).map
      (fun t => (t.phase, t.status, t.responses, t.requests)) = some (.idle, 0x10, [0x80000000#32], []) := by decide
/-- V2.6c. -/
theorem test_getcursor :
    (after (exec .getcursor (chain 65536 524288 0 .center))).map (fun t => t.responses) = some [0x00080000#32] := by
  decide
/-- V2.6d. -/
theorem test_getpcount :
    (after (exec .getpcount (chain 2 0 0 .center))).map (fun t => t.responses) = some [0x00000002#32] := by decide
/-- V2.6e; the hard-wired bits read 0 (R28). -/
theorem test_getstatus :
    (after (exec .getstatus { chain 1 0 0 .center with status := 0xCA })).map (fun t => t.responses) =
      some [0x0000000A#32] := by decide

/-! ## Steps -/

/-- V2.7d: CLEAR with a reserved bit set is rejected and does not clear. -/
theorem test_step_illegal :
    (after (step (offering 0x000000000000000011#72 (chain 1 5 0x1F .center)))).map
      (fun t => (t.cursor, t.status, t.responses, t.offered)) = some (5, 0x01, [0x80000000#32], []) := by decide
/-- The first instruction after reset. -/
theorem test_first_instruction :
    (after (step (State.reset.withFetchWord 72 0x4))).map (fun t => t.responses) = some [0x00000001#32] := by decide
theorem test_reset_sends_init :
    (after (step State.reset)).map (fun t => (t.phase, t.requests)) = some (.resetSeq .initSent, [.init]) := by decide
/-- V2.8b, and V2.8a with one panel. -/
theorem test_reset_counts :
    (after (step (facing (.resetSeq .querySent) (.driver (.count 0)) 0))).map (fun t => (t.pcount, t.status)) =
        some (0, 0x20) ∧
      (after (step (facing (.resetSeq .querySent) (.driver (.count 1)) 0))).map (fun t => (t.pcount, t.status)) =
        some (1, 0x00) := by decide
/-- V2.8e. -/
theorem test_reset_init_fails :
    (after (step (facing (.resetSeq .initSent) (.driver .fail) 0))).map (fun t => (t.pcount, t.status, t.requests)) =
      some (0, 0x30, []) := by decide

/-! ## Witnesses: for each statement with hypotheses, a case that meets them -/

theorem witness_EncodeOfDecodeIsTheWord : decode 0x000000000000000235#72 = some (.panelrow 3 2) := by decide

theorem witness_BytesCarryTheWord : 8 < 9 ∧ 7 < 8 ∧ 3 < 4 := by decide

theorem witness_AssembledWordsAreTheSums :
    (3 < 4 ∧ 4 ≤ 4 ∧ 2 ^ 72 ≤ 2 ^ 72) ∧
      (65535 < 65536 ∧ 7 < 8) ∧ (65536 ≤ 65536 ∨ 8 ≤ 0) ∧ (65536 ≤ 0 ∨ 8 ≤ 8) ∧ (15 < 16 ∧ 255 < 256) ∧
      (16 ≤ 16 ∨ [0, 0].length ≠ 8 ∨ ∃ b ∈ [0, 0], 256 ≤ b) ∧
      (∃ b ∈ [0, 0, 0, 0, 0, 0, 0, 256], 256 ≤ b) := by decide

theorem witness_PseudoInstructionsExpand :
    GlyphChar.ofChar '9' = some (.digit 9) ∧
      ['1', ':', '.'].map GlyphChar.ofChar = [GlyphChar.digit 1, .colon, .fullStop].map some ∧
      GlyphChar.ofChar '/' = none ∧ (∃ c ∈ ['0', ';'], GlyphChar.ofChar c = none) :=
  ⟨by decide, by decide, by decide, ';', by decide, by decide⟩

theorem witness_AssertedResetAbandonsAll :
    (facing .rendering .platform 1).nextTurn = (.platform, []) ∧
      ((facing (.resetSeq .start) (.driver .ok) 0).phase = .resetSeq .start ∧
        (facing (.resetSeq .start) (.driver .ok) 0).nextTurn = (.driver .ok, [])) ∧
      (facing (.resetSeq .initSent) (.lateDriver .fail) 0).nextTurn = (.lateDriver .fail, []) := by decide

theorem witness_ResetSendsInitThenQuery :
    (State.reset.phase = .resetSeq .start ∧ State.reset.nextTurn = (.fbc, [])) ∧
      ((facing (.resetSeq .initSent) .fbc 0).phase = .resetSeq .initSent ∧
        (facing (.resetSeq .initSent) .fbc 0).nextTurn = (.fbc, [])) ∧
      ((facing (.resetSeq .initSent) (.driver .ok) 0).phase = .resetSeq .initSent ∧
        (facing (.resetSeq .initSent) (.driver .ok) 0).nextTurn = (.driver .ok, [])) ∧
      ((facing (.resetSeq .querySent) .fbc 0).phase = .resetSeq .querySent ∧
        (facing (.resetSeq .querySent) .fbc 0).nextTurn = (.fbc, [])) := by decide

theorem witness_FailedHandshakeLeavesNoPanels :
    ((facing (.resetSeq .initSent) (.driver .fail) 0).phase = .resetSeq .initSent ∧
        (facing (.resetSeq .initSent) (.driver .fail) 0).nextTurn = (.driver .fail, [])) ∧
      ((facing (.resetSeq .querySent) (.driver .fail) 0).phase = .resetSeq .querySent ∧
        (facing (.resetSeq .querySent) (.driver .fail) 0).nextTurn = (.driver .fail, [])) := by decide

/-- The boundary counts 1, 0 and one above every `PMAX`. -/
theorem witness_QueryCountIsLatched :
    ((facing (.resetSeq .querySent) (.driver (.count 1)) 0).phase = .resetSeq .querySent ∧
        (facing (.resetSeq .querySent) (.driver (.count 1)) 0).nextTurn = (.driver (.count 1), [])) ∧
      (1 ≤ (1#32).toNat ∧ (1#32).toNat ≤ Config.pmax) ∧ (0#32).toNat = 0 ∧ Config.pmax < (65537#32).toNat :=
  ⟨by decide, ⟨by decide, Config.one_le_pmax⟩, by decide, Nat.lt_succ_of_le Config.pmax_le⟩

theorem witness_UnansweredDriverIsAStuckState :
    (facing .rendering .fbc 1).phase = .rendering ∧
      ∀ x ∈ [Turn.fbc, .host 0, .lateDriver .ok], x = .fbc ∨ (∃ cw, x = .host cw) ∨ ∃ a, x = .lateDriver a := by
  refine ⟨rfl, ?_⟩
  simp

theorem witness_OfferedWordsWaitWhileNotReady :
    (facing .rendering (.host 1) 1).phase ≠ .idle ∧ (facing .rendering (.host 1) 1).nextTurn.1 ≠ .platform ∧
      ∃ t, step (facing .rendering (.host 1) 1) = .next t :=
  ⟨by decide, by decide, _, rfl⟩

theorem witness_PanelCountIsFixedBetweenResets :
    ((facing (.resetSeq .querySent) (.driver .fail) 0).phase = .resetSeq .querySent ∧
        ∃ t, step (facing (.resetSeq .querySent) (.driver .fail) 0) = .next t ∧ ∀ place, t.phase ≠ .resetSeq place) ∧
      ((∀ place, (chain 1 0 0 .left).phase ≠ .resetSeq place) ∧ (chain 1 0 0 .left).nextTurn.1 ≠ .platform ∧
        ∃ t, step (chain 1 0 0 .left) = .next t) :=
  ⟨⟨by decide, _, rfl, fun place => by cases place <;> decide⟩, fun place => by cases place <;> decide, by decide, _, rfl⟩

theorem witness_StepRunsTheDecodedCommand :
    ∃ s', (offering 0x9 (chain 1 0 0 .left)).Accepts 0x9 s' ∧ decode 0x9 = some .getstatus :=
  ⟨_, offering_accepts _ _, by decide⟩

/-- One word for each clause: opcodes 0 and 10, and a reserved bit of each format at its ends. -/
theorem witness_IllegalWordsAreRejected :
    (∃ s', (offering 0 (chain 1 0 0 .left)).Accepts 0 s') ∧
      ∀ cw ∈ [0x000000000000000000#72, 0x00000000000000000A#72, 0x000000000000000011#72, 0x800000000000000009#72,
        0x000000000000000043#72, 0x000000000000000103#72, 0x000000000000000085#72, 0x000000000001000005#72],
        IllegalWord cw := by
  refine ⟨⟨_, offering_accepts _ _⟩, ?_⟩
  simp [IllegalWord]

theorem witness_CommandsRaiseAtMostOneCause :
    decode 0x0 = none ∧ decode 0x33 = some (.setalign 3) ∧
      (decode 0x92 = some (.append (block 9 0)) ∧ (block 9 0).valid = false) ∧
      (decode 0x12 = some (.append (block 1 0)) ∧ (block 1 0).valid = true ∧
        (chain 1 8 0 .left).totalWidth < (chain 1 8 0 .left).cursor + (block 1 0).width.toNat) ∧
      (decode 0x105 = some (.panelrow 0 1) ∧ (chain 1 8 0 .left).pcount ≤ (1#16).toNat) := by decide

/-- An accepted RENDER, a step in RENDERING, a reset, a step that accepts nothing. -/
theorem witness_AcceptedWordGetsOneResponse :
    (∃ s', (offering 0x6 (chain 1 0 0 .left)).Accepts 0x6 s') ∧
      (facing .rendering (.driver .ok) 1).nextTurn.1 ≠ .platform ∧ (facing .rendering .platform 1).nextTurn.1 = .platform ∧
      (facing .idle (.host 0) 1).phase ≠ .rendering ∧ ∀ cw s', ¬ (facing .idle (.host 0) 1).Accepts cw s' := by
  refine ⟨⟨_, offering_accepts _ _⟩, by decide, by decide, by decide, ?_⟩
  rintro cw s' ⟨_, rest, turns, h, _⟩
  cases h

/-- An ended run of one command (V2.8b, then GETALIGN). -/
theorem witness_ended_run :
    ∃ t, runSteps 5 { State.reset with agenda := [.host 0x4, .fbc, .driver .ok, .driver (.count 0), .fbc] } = .next t ∧
      t.runEnded = true ∧ t.responses = [0x00000001#32] := ⟨_, rfl, by decide, by decide⟩

/-- A word that a reset discards is never answered: the run has no end (R260, R276). -/
theorem test_lost_command :
    ∃ t, runSteps 5 { State.reset with agenda := [.host 0x4, .platform, .fbc, .driver .ok, .driver (.count 0)] } = .next t ∧
      t.phase = .idle ∧ t.offered = [] ∧ t.lost = 1 ∧ t.runEnded = false := ⟨_, rfl, by decide⟩

/-- A step that sends a response: it meets the hypothesis of the statements about every step (O21, O53 to O56). -/
theorem witness_ResponsesHaveTheFormat :
    ∃ t, step (offering 0x9 (chain 1 0 0 .left)) = .next t ∧ t.responses ≠ [] := ⟨_, rfl, by decide⟩

/-- The widths 1 and 8, the latter an exact fit. -/
theorem witness_AppendMergesTheGlyph :
    (1 ≤ (block 1 1).width.toNat ∧ (block 1 1).width.toNat ≤ 8 ∧
        (chain 1 7 0 .left).cursor + (block 1 1).width.toNat ≤ 8 * (chain 1 7 0 .left).pcount) ∧
      (1 ≤ (block 8 1).width.toNat ∧ (block 8 1).width.toNat ≤ 8 ∧
        (chain 1 0 0 .left).cursor + (block 8 1).width.toNat ≤ 8 * (chain 1 0 0 .left).pcount) := by decide

theorem witness_AppendOfBadWidthIsRejected : (block 0 1).width.toNat = 0 ∧ 8 < (block 9 1).width.toNat := by decide

theorem witness_AppendPastTheEndIsRejected :
    1 ≤ (block 1 1).width.toNat ∧ (block 1 1).width.toNat ≤ 8 ∧
      8 * (chain 1 8 0 .left).pcount < (chain 1 8 0 .left).cursor + (block 1 1).width.toNat := by decide

theorem witness_ExactFitFillsTheBuffer :
    1 ≤ (block 3 1).width.toNat ∧ (block 3 1).width.toNat ≤ 8 ∧
      (chain 1 5 0 .left).cursor + (block 3 1).width.toNat = (chain 1 5 0 .left).totalWidth ∧
      .clear ∉ [Instr.getstatus] := by decide

theorem witness_NoPanelsRejectsEveryAppend :
    (chain 0 0 0 .left).pcount = 0 ∧ (block 1 1).valid = true ∧ (block 9 1).valid = false := by decide

theorem witness_AppendCorruptsNoEarlierGlyph :
    (∀ r : Fin 8, (chain 1 5 0x1F .left).rows[r] < 2 ^ (chain 1 5 0x1F .left).cursor) ∧
      1 ≤ (block 3 1).width.toNat ∧ (block 3 1).width.toNat ≤ 8 ∧
      (chain 1 5 0x1F .left).cursor + (block 3 1).width.toNat ≤ (chain 1 5 0x1F .left).totalWidth := by decide

theorem witness_SetalignWritesTheMode : (2#2 ≠ 3) ∧ (3#2 = 3) := by decide

theorem witness_GetalignRespondsTheCode :
    (chain 1 0 0 .left).align = .left ∧ (chain 1 0 0 .center).align = .center ∧ (chain 1 0 0 .right).align = .right := by
  decide

/-- The three modes, with an odd leftover of 3 columns (O34, O35, O39). -/
theorem witness_AlignedRunIsPlacedByMode :
    ∀ a : Align, a ∈ [Align.left, .center, .right] →
      (chain 1 5 0x1F a).cursor ≤ (chain 1 5 0x1F a).totalWidth ∧
        (∀ r : Fin 8, (chain 1 5 0x1F a).rows[r] < 2 ^ (chain 1 5 0x1F a).cursor) ∧
        ∃ lo ∈ [0, 1, 3],
          ((chain 1 5 0x1F a).align = .right ∧ lo = 0 ∨
            (chain 1 5 0x1F a).align = .left ∧ lo = (chain 1 5 0x1F a).totalWidth - (chain 1 5 0x1F a).cursor ∨
            (chain 1 5 0x1F a).align = .center ∧
              lo = ((chain 1 5 0x1F a).totalWidth - (chain 1 5 0x1F a).cursor) / 2) := by
  decide

theorem witness_EqualModes :
    ((∀ r : Fin 8, (chain 1 8 0xFF .left).rows[r] < 2 ^ (chain 1 8 0xFF .left).cursor) ∧
        (chain 1 8 0xFF .left).cursor = (chain 1 8 0xFF .left).totalWidth) ∧
      ((∀ r : Fin 8, (chain 1 7 0x7F .left).rows[r] < 2 ^ (chain 1 7 0x7F .left).cursor) ∧
        (chain 1 7 0x7F .left).cursor + 1 = (chain 1 7 0x7F .left).totalWidth) ∧
      ((∀ r : Fin 8, (chain 1 0 0 .left).rows[r] < 2 ^ (chain 1 0 0 .left).cursor) ∧ (chain 1 0 0 .left).cursor = 0) := by
  decide

/-- The last panel in range and the first one out of range (O37, O38). -/
theorem witness_PanelrowReadsTheAlignedColumns :
    (2#16).toNat < (chain 3 20 0xABCDE .left).pcount ∧ (chain 3 20 0xABCDE .left).pcount ≤ (3#16).toNat := by decide

theorem witness_PanelBytesCoverTheRow : (chain 1 5 0x1F .left).pcount = 1 := by decide

theorem witness_ClearedPanelsReadZero :
    (∀ g, .append g ∈ [Instr.setalign 0, .append (block 9 0xFF)] →
        g.valid = false ∨ (chain 1 5 0x1F .left).totalWidth < g.width.toNat) ∧
      (0#16).toNat < (chain 1 5 0x1F .left).pcount := by
  refine ⟨?_, by decide⟩
  intro g hg
  simp at hg
  subst hg
  exact .inl (by decide)

theorem witness_ReadsAreIdempotent :
    (∃ r p, Instr.panelrow 0 1 = .panelrow r p ∧ (chain 1 0 0 .left).pcount ≤ p.toNat) ∧
      (∃ r p, Instr.panelrow 7 0 = .panelrow r p ∧ p.toNat < (chain 1 0 0 .left).pcount) :=
  ⟨⟨0, 1, rfl, by decide⟩, 7, 0, rfl, by decide⟩

theorem witness_RightReadsTheComposedBits : (chain 3 20 0xABCDE .right).align = .right := by decide

theorem witness_RenderOfNoPanelsEndsAtOnce : (chain 0 0 0 .left).pcount = 0 := by decide

theorem witness_RenderSendsItsFirstByte : (chain 1 0 0 .left).pcount ≠ 0 := by decide

/-- One panel. First clause: 7 OKs among words, waiting turns and late answers. Second clause: the 8th OK. -/
theorem witness_RenderSendsEveryPanelByteInOrder :
    ∃ s s' during turns, State.Accepts s (encode .render) s' ∧ s'.agenda = during ++ turns ∧
      (∀ more ∈ [[], [Turn.driver .ok]],
        .platform ∉ during ++ more ∧ .driver .fail ∉ during ++ more) ∧
      during.count (.driver .ok) + 1 = 8 * s.pcount ∧
      (during ++ [Turn.driver .ok]).count (Turn.driver .ok) = 8 * s.pcount ∧
      (during ++ [Turn.driver .ok]).getLast? = some (Turn.driver .ok) ∧ turns = [.driver .ok] ∧ s.pcount = 1 :=
  ⟨{ chain 1 5 0x1F .left with
      offered := [encode .render]
      agenda := .fbc :: (.host 0x1 :: List.replicate 7 (.driver .ok) ++ [.fbc, .lateDriver .fail]) ++ [.driver .ok] },
    _, .host 0x1 :: List.replicate 7 (.driver .ok) ++ [.fbc, .lateDriver .fail], [.driver .ok],
    ⟨rfl, [], _, rfl, rfl, rfl⟩, rfl, by decide, by decide, by decide, by decide, rfl, rfl⟩

/-- P4: the 11th of 16 answers is FAIL, here with a word offered meanwhile. -/
theorem witness_RenderStopsAtTheFirstFailure :
    ∃ s s' during turns, State.Accepts s (encode .render) s' ∧ s'.agenda = during ++ .driver .fail :: turns ∧
      .platform ∉ during ∧ .driver .fail ∉ during ∧ 11 = during.count (.driver .ok) + 1 ∧ 11 ≤ 8 * s.pcount :=
  ⟨{ chain 2 7 0x7F .center with
      offered := [encode .render]
      agenda := .fbc :: (.host 0x9 :: List.replicate 10 (.driver .ok)) ++ [.driver .fail] },
    _, .host 0x9 :: List.replicate 10 (.driver .ok), [],
    ⟨rfl, [], _, rfl, rfl, rfl⟩, rfl, by decide, by decide, by decide, by decide⟩

theorem witness_RenderBytesAreThePanelrowBytes :
    (chain 2 0 0 .left).pcount ≤ 65536 ∧ (1#16).toNat < (chain 2 0 0 .left).pcount := by decide

/-- An OK that is not the last, the last OK, a FAIL, and a turn that is neither. -/
theorem witness_RenderingKeepsTheBuffer :
    (facing .rendering (.driver .ok) 1).nextTurn.1 = .driver .ok ∧
      ((facing .rendering (.driver .ok) 1).rp < 1 ∧
        8 * (facing .rendering (.driver .ok) 1).rp + (facing .rendering (.driver .ok) 1).rr.val + 1 < 8 * 1) ∧
      8 * 0 + ({ facing .rendering (.driver .ok) 1 with rr := 7 }).rr.val + 1 = 8 * 1 ∧
      (facing .rendering (.driver .fail) 1).nextTurn.1 = .driver .fail ∧
      ((facing .rendering (.host 0) 1).nextTurn.1 ≠ .driver .ok ∧
        (facing .rendering (.host 0) 1).nextTurn.1 ≠ .driver .fail ∧
        (facing .rendering (.host 0) 1).nextTurn.1 ≠ .platform) ∧
      ∃ t, step (facing .rendering (.host 0) 1) = .next t :=
  ⟨by decide, by decide, by decide, by decide, by decide, _, rfl⟩

/-- A rendering state of one panel has the invariant, and its next step sends a request (O49, O56). -/
theorem witness_DriverRequestsAreInRange :
    (facing .rendering (.driver .ok) 1).Inv ∧
      ∃ t, step (facing .rendering (.driver .ok) 1) = .next t ∧ t.requests ≠ [] :=
  ⟨{ cursor_le := by decide
     rows_lt := by decide
     pcount_le := Config.one_le_pmax
     status_reserved := by decide
     render_panel := by decide
     rp_lt := by decide
     in_reset := fun place => by cases place <;> decide
     failed_chain := fun _ => by decide }, _, rfl, by decide⟩

/-- The largest cursor (O50, O51). -/
theorem witness_GetcursorRespondsTheCursor :
    (chain 65536 524288 0 .left).cursor ≤ (chain 65536 524288 0 .left).totalWidth ∧
      (chain 65536 524288 0 .left).pcount ≤ 65536 := by decide

theorem witness_FlagsAreSticky :
    ((facing .rendering (.driver .fail) 1).nextTurn.1 ≠ .platform ∧
        ({ facing .rendering (.driver .fail) 1 with status := 0x01 }).hasFlag .ill = true) ∧
      (facing .rendering .platform 1).nextTurn.1 = .platform ∧
      (Instr.getstatus = .clear ∨ Instr.getstatus = .getstatus) := by decide

/-- A step that sets each flag: ILL, BADW, OVF, RANGE by accepted words, DRVERR and CFGERR by driver answers. -/
theorem witness_FlagsAreSetOnlyByTheirEvents :
    ((after (step (offering 0x0 (chain 1 8 0 .left)))).map (State.hasFlag .ill) = some true ∧
      (after (step (offering 0x92 (chain 1 8 0 .left)))).map (State.hasFlag .badw) = some true ∧
      (after (step (offering 0x12 (chain 1 8 0 .left)))).map (State.hasFlag .ovf) = some true) ∧
      ((after (step (offering 0x105 (chain 1 8 0 .left)))).map (State.hasFlag .range) = some true ∧
      (after (step (facing .rendering (.driver .fail) 1))).map (State.hasFlag .drverr) = some true ∧
      (after (step (facing (.resetSeq .querySent) (.driver (.count 0)) 0))).map (State.hasFlag .cfgerr) = some true) := by
  decide

/-- Steps that write ROWS, and ALIGN. -/
theorem witness_OnlyTheirCommandsWriteTheBuffer :
    (∃ t, step (offering 0x1 (chain 1 5 0x1F .left)) = .next t ∧ t.rows ≠ (chain 1 5 0x1F .left).rows) ∧
      ∃ t, step (offering 0x23 (chain 1 5 0x1F .left)) = .next t ∧ t.align ≠ (chain 1 5 0x1F .left).align :=
  ⟨⟨_, rfl, by decide⟩, _, rfl, by decide⟩

/-- From reset, a host's word, an OK, a count: the run reaches a state (O58). -/
theorem witness_CursorAndRowsStayInBounds :
    ∃ t, runSteps 4 { State.reset with agenda := [.host 0x1, .fbc, .driver .ok, .driver (.count 1)] } = .next t ∧
      t.pcount = 1 :=
  ⟨_, rfl, by decide⟩

/-- A step that enters RENDERING, from states that differ in RP and RR. -/
theorem witness_RenderCounterIsUnobservable :
    (offering 0x6 (chain 1 0 0 .left)).phase ≠ .rendering ∧
      (offering 0x6 (chain 1 0 0 .left)).sameButCounter { offering 0x6 (chain 1 0 0 .left) with rp := 9, rr := 3 } ∧
      (∃ t, step (offering 0x6 (chain 1 0 0 .left)) = .next t ∧ t.phase = .rendering) ∧
      ∃ t, step { offering 0x6 (chain 1 0 0 .left) with rp := 9, rr := 3 } = .next t :=
  ⟨by decide, rfl, ⟨_, rfl, by decide⟩, _, rfl⟩

theorem witness_OnlyRenderWritesTheCounter :
    Instr.clear ≠ .render ∧ ∃ t, exec .clear (chain 1 0 0 .left) = .next t := ⟨by decide, _, rfl⟩

end Sys2Proof.Tests
end

section
/-! SUPPORT. Every move of the system, said once: what a step can do, as cases with names. -/

namespace Sys2Proof.Machine

/-- The state a turn is taken in: the state without the turn. -/
abbrev State.turnTaken (s : State) : State := { s with agenda := s.nextTurn.2 }

/-- The moves from a state: the FBC accepts a word, waits, or goes on with the reset sequence or a RENDER; the host offers a
word; the platform resets. -/
inductive Move (s : State) : State → Prop
  | accept {cw : CmdWord} {s' t : State} (ha : s.Accepts cw s') (he : perform cw s' = .next t) : Move s t
  | wait : Move s s.turnTaken
  | offer (cw : CmdWord) : Move s (s.turnTaken.hostOffers cw)
  | sendInit (hp : s.phase = .resetSeq .start) : Move s s.turnTaken.sendInit
  | sendQuery (hp : s.phase = .resetSeq .initSent) : Move s s.turnTaken.sendQuery
  | resetFailed (hp : s.phase = .resetSeq .initSent ∨ s.phase = .resetSeq .querySent)
      (hn : s.nextTurn.1 = .driver .fail) : Move s s.turnTaken.resetFailed
  | latch (n : BitVec 32) (hp : s.phase = .resetSeq .querySent) (hc : 1 ≤ n.toNat ∧ n.toNat ≤ Config.pmax) :
      Move s (s.turnTaken.endReset n.toNat)
  | refuseCount (n : BitVec 32) (hp : s.phase = .resetSeq .querySent) (hn : s.nextTurn.1 = .driver (.count n))
      (hc : ¬ (1 ≤ n.toNat ∧ n.toNat ≤ Config.pmax)) : Move s ((s.turnTaken.setFlag .cfgerr).endReset 0)
  | sendRow (p : Nat) (r : Fin 8) (hp : s.phase = .rendering) (hb : p = s.rp ∨ p < s.pcount) :
      Move s (s.turnTaken.sendRow p r)
  | renderDone (hp : s.phase = .rendering) : Move s s.turnTaken.renderDone
  | renderAborted (hp : s.phase = .rendering) (hn : s.nextTurn.1 = .driver .fail) : Move s s.turnTaken.renderAborted
  | reset (hn : s.nextTurn.1 = .platform) : Move s s.turnTaken.assertReset

/-- A turn of the FBC is a move. -/
theorem move_of_fbcTurn {s t : State} (hn : s.nextTurn.1 = .fbc) (h : fbcTurn s.turnTaken = .next t) : Move s t := by
  rcases fbcTurn_cases h with ⟨hp, rfl⟩ | ⟨_, _, rfl⟩ | ⟨_, _, rfl⟩ | ⟨hp, cw, rest, ho, _⟩
  · exact .sendInit hp
  · exact .wait
  · exact .wait
  · have hturn : s.nextTurn = (.fbc, s.nextTurn.2) := Prod.ext hn rfl
    have ha : s.Accepts cw { s with offered := rest, agenda := s.nextTurn.2 } := ⟨hp, rest, _, ho, hturn, rfl⟩
    exact .accept ha (by rw [← step_accepts ha, step_fbc hturn, h])

/-- An answer of the driver is a move. -/
theorem move_of_driverAnswers {s : State} {a : DrvAns} (hn : s.nextTurn.1 = .driver a) :
    Move s (s.turnTaken.driverAnswers a) := by
  rcases driverAnswers_cases a s.turnTaken with
    ⟨hp, _, e⟩ | ⟨hp, rfl, e⟩ | ⟨hp, n, rfl, e⟩ | ⟨hp, _, e⟩ | ⟨hp, rfl, e⟩ | e <;> rw [e]
  · exact .sendQuery hp
  · exact .resetFailed hp hn
  · rcases latchCount_cases n.toNat s.turnTaken with ⟨hc, e⟩ | ⟨hc, e⟩ <;> rw [e]
    · exact .latch n hp hc
    · exact .refuseCount n hp hn hc
  · rcases renderNext_cases s.turnTaken with ⟨_, e⟩ | ⟨_, hlt, e⟩ | ⟨_, _, e⟩ <;> rw [e]
    · exact .sendRow _ _ hp (.inl rfl)
    · exact .sendRow _ _ hp (.inr hlt)
    · exact .renderDone hp
  · exact .renderAborted hp hn
  · exact .wait

/-- Every step is a move. -/
theorem move_of_step {s t : State} (h : step s = .next t) : Move s t := by
  rcases step_cases h with ⟨hn, h⟩ | ⟨cw, _, rfl⟩ | ⟨a, hn, rfl⟩ | ⟨_, _, rfl⟩ | ⟨hn, rfl⟩
  · exact move_of_fbcTurn hn h
  · exact .offer cw
  · exact move_of_driverAnswers hn
  · exact .wait
  · exact .reset hn

/-- A turn of the platform asserts reset (R260). -/
theorem step_platform {s : State} (hn : s.nextTurn.1 = .platform) : step s = .next s.turnTaken.assertReset := by
  simp [step, hn, State.takeTurn]

/-! What accepting a word leaves unchanged. -/

theorem State.Accepts.phase_idle {s s' : State} {cw : CmdWord} (h : s.Accepts cw s') : s'.phase = .idle := by
  obtain ⟨hp, _, _, _, _, rfl⟩ := h
  exact hp

theorem State.Accepts.sameBuffer {s s' : State} {cw : CmdWord} (h : s.Accepts cw s') : s.SameBuffer s' := by
  obtain ⟨_, _, _, _, _, rfl⟩ := h
  exact ⟨rfl, rfl, rfl, rfl⟩

theorem State.Accepts.status_eq {s s' : State} {cw : CmdWord} (h : s.Accepts cw s') : s'.status = s.status := by
  obtain ⟨_, _, _, _, _, rfl⟩ := h
  rfl

theorem State.Accepts.responses_eq {s s' : State} {cw : CmdWord} (h : s.Accepts cw s') :
    s'.responses = s.responses := by
  obtain ⟨_, _, _, _, _, rfl⟩ := h
  rfl

/-- Accepting a word keeps the invariant. -/
theorem State.Accepts.inv {s s' : State} {cw : CmdWord} (h : s.Accepts cw s') (hi : s.Inv) : s'.Inv := by
  obtain ⟨_, _, _, _, _, rfl⟩ := h
  exact hi.congr ⟨rfl, rfl, rfl, rfl⟩ rfl rfl rfl

end Sys2Proof.Machine
end


section
/-! SUPPORT. Which flags are set after a flag has been set. -/

namespace Sys2Proof.Machine

/-- Setting a flag sets that flag alone (R27). -/
@[simp] theorem hasFlag_setFlag (f g : Flag) (s : State) : (s.setFlag f).hasFlag g = (s.hasFlag g || decide (g = f)) := by
  have hbit : g.bit = f.bit ↔ g = f := by cases g <;> cases f <;> decide
  rw [State.hasFlag, setFlag_bit, State.hasFlag]
  simp only [hbit]

/-- No flag is one of the reserved bits 7:6 (R28). -/
theorem setFlag_reserved {s : State} (h : s.status &&& 0xC0 = 0) (f : Flag) : (s.setFlag f).status &&& 0xC0 = 0 := by
  have hd : (s.status ||| f.mask) &&& 0xC0 = (s.status &&& 0xC0) ||| (f.mask &&& 0xC0) := by
    ext k
    simp [Bool.and_or_distrib_right]
  rw [State.setFlag_status, hd, h, f.mask_reserved]
  rfl

end Sys2Proof.Machine
end

section
/-! SUPPORT. What each operation does to the invariant. -/

namespace Sys2Proof.Machine

/-- The reset state has the invariant (R35, R261). -/
theorem reset_inv : State.reset.Inv where
  cursor_le := Nat.zero_le _
  rows_lt r := by simp [State.reset]
  pcount_le := Nat.zero_le _
  status_reserved := by decide
  render_panel h := by cases h
  rp_lt := by decide
  in_reset _ _ := ⟨rfl, rfl, rfl⟩
  failed_chain h := absurd rfl (h .start)

/-- Asserting reset restores the invariant from any state (R260). -/
theorem assertReset_inv (s : State) : s.assertReset.Inv := reset_inv.congr ⟨rfl, rfl, rfl, rfl⟩ rfl rfl rfl

section Operations
variable {s : State} (h : s.Inv)
include h

/-- A response changes nothing that the invariant speaks of. -/
theorem State.Inv.sendRsp (b : Bool) (d : BitVec 24) : (s.sendRsp b d).Inv := h.congr ⟨rfl, rfl, rfl, rfl⟩ rfl rfl rfl

/-- A word offered changes nothing that the invariant speaks of. -/
theorem State.Inv.hostOffers (cw : CmdWord) : (s.hostOffers cw).Inv := h.congr ⟨rfl, rfl, rfl, rfl⟩ rfl rfl rfl

/-- Taking a turn off the agenda changes nothing that the invariant speaks of. -/
theorem State.Inv.turnTaken : s.turnTaken.Inv := h.congr ⟨rfl, rfl, rfl, rfl⟩ rfl rfl rfl

/-- The place in the reset sequence does not matter to the invariant. -/
theorem State.Inv.toResetPlace {place : ResetStep} (hp : s.phase = .resetSeq place) (place' : ResetStep) (q : DrvReq) :
    (State.sendReq q { s with phase := .resetSeq place' }).Inv :=
  { h with
    render_panel := fun hr => by cases hr
    in_reset := fun _ _ => h.in_reset place hp
    failed_chain := fun hr => absurd rfl (hr place') }

/-- The reset sequence ends with a legal count and CFGERR, or with neither (R263 to R265). -/
theorem State.Inv.endReset {u : State} {n : Nat} {place : ResetStep} (hp : s.phase = .resetSeq place)
    (hb : s.SameBuffer u) (hrp : u.rp = s.rp) (hs : u.status &&& 0xC0 = 0) (hn : n ≤ Config.pmax)
    (hf : n = 0 ↔ u.hasFlag .cfgerr = true) : (u.endReset n).Inv where
  cursor_le := by
    rw [State.endReset_cursor, hb.cursor, (h.in_reset place hp).1]
    exact Nat.zero_le _
  rows_lt := by simpa only [State.endReset_rows, State.endReset_cursor, hb.rows, hb.cursor] using h.rows_lt
  pcount_le := hn
  status_reserved := hs
  render_panel hr := by cases hr
  rp_lt := hrp ▸ h.rp_lt
  in_reset _ hr := by cases hr
  failed_chain _ := hf

/-- CLEAR leaves an empty buffer, which is within bounds (R121). -/
theorem State.Inv.cleared : s.cleared.Inv :=
  { h with
    cursor_le := Nat.zero_le _
    rows_lt := fun r => by simp
    in_reset := fun place hr => ⟨rfl, (h.in_reset place hr).2⟩ }

variable (hp : ∀ place, s.phase ≠ .resetSeq place)
include hp

/-- Outside the reset sequence a flag other than CFGERR may be set. -/
theorem State.Inv.setFlag {f : Flag} (hf : f ≠ .cfgerr) : (s.setFlag f).Inv :=
  { h with
    status_reserved := setFlag_reserved h.status_reserved f
    in_reset := fun place hr => absurd hr (hp place)
    failed_chain := fun hr => by simpa [hf.symm] using h.failed_chain hr }

/-- Outside the reset sequence the mode may change (R141). -/
theorem State.Inv.withAlign (a : Align) : ({ s with align := a } : State).Inv :=
  { h with in_reset := fun place hr => absurd hr (hp place) }

/-- A glyph that fits keeps the cursor within the chain and the rows below the cursor (R126, R127). -/
theorem State.Inv.merge {g : Glyph} (hfit : s.cursor + g.width.toNat ≤ s.totalWidth) : (s.merge g).Inv :=
  { h with
    cursor_le := hfit
    rows_lt := fun r => by
      have hold : s.rows[r] < 2 ^ (s.cursor + g.width.toNat) :=
        (h.rows_lt r).trans_le (Nat.pow_le_pow_right (by decide) (Nat.le_add_right _ _))
      have hnew : grow g r <<< s.cursor < 2 ^ (s.cursor + g.width.toNat) := by
        rw [Nat.shiftLeft_eq, Nat.add_comm, Nat.pow_add]
        exact Nat.mul_lt_mul_of_pos_right (grow_bound g r) (Nat.two_pow_pos _)
      rw [merge_row, State.merge_cursor]
      exact Nat.or_lt_two_pow hold hnew
    in_reset := fun place hr => absurd hr (hp place) }

/-- A request for a panel of the chain (R182). -/
theorem State.Inv.sendRow {p : Nat} (hlt : p < s.pcount) (r : Fin 8) : (s.sendRow p r).Inv :=
  { h with
    render_panel := fun _ => hlt
    rp_lt := by
      have := h.pcount_le
      have := Config.pmax_le
      rw [State.sendRow_rp]
      omega
    in_reset := fun _ hr => by cases hr
    failed_chain := fun _ => h.failed_chain hp }

/-- The end of a RENDER leaves any 17-bit `RP` (R32). -/
theorem State.Inv.leaveRender : s.leaveRender.Inv :=
  { h with
    render_panel := fun hr => by cases hr
    rp_lt := (Config.freeRp s.freeIx).isLt
    in_reset := fun _ hr => by cases hr
    failed_chain := fun _ => h.failed_chain hp }

end Operations

/-- A command accepted in IDLE keeps the invariant. -/
theorem exec_keeps_inv {i : Instr} {s t : State} (h : s.Inv) (hp : s.phase = .idle) (he : exec i s = .next t) : t.Inv := by
  have hp' : ∀ place, s.phase ≠ .resetSeq place := by simp [hp]
  rcases exec_cases he with
    ⟨f, hf, rfl⟩ | ⟨d, rfl⟩ | ⟨_, rfl⟩ | ⟨g, _, _, hfit, rfl⟩ | ⟨a, _, rfl⟩ | ⟨_, _, rfl⟩ | ⟨_, hne, rfl⟩
  · exact (h.setFlag hp' (by rintro rfl; simp at hf)).sendRsp _ _
  · exact h.sendRsp _ _
  · exact h.cleared.sendRsp _ _
  · exact (h.merge hp' hfit).sendRsp _ _
  · exact (h.withAlign hp' a).sendRsp _ _
  · exact (h.leaveRender hp').sendRsp _ _
  · exact h.sendRow hp' (Nat.pos_of_ne_zero hne) 0

/-- A word accepted in IDLE, legal or not, keeps the invariant. -/
theorem perform_keeps_inv {cw : CmdWord} {s t : State} (h : s.Inv) (hp : s.phase = .idle)
    (he : perform cw s = .next t) : t.Inv := by
  cases hd : decode cw with
  | none =>
    rw [perform_illegal hd] at he
    cases he
    exact (h.setFlag (by simp [hp]) (by decide)).sendRsp _ _
  | some i => exact exec_keeps_inv h hp (perform_decoded hd s ▸ he)

/-- Every move keeps the invariant. -/
theorem move_keeps_inv {s t : State} (hi : s.Inv) (m : Move s t) : t.Inv := by
  have h := hi.turnTaken
  cases m with
  | accept ha he => exact perform_keeps_inv (ha.inv hi) ha.phase_idle he
  | wait => exact h
  | offer cw => exact h.hostOffers cw
  | sendInit hp => exact h.toResetPlace hp .initSent .init
  | sendQuery hp => exact h.toResetPlace hp .querySent .query
  | resetFailed hp =>
    have hs := setFlag_reserved (setFlag_reserved h.status_reserved .drverr) .cfgerr
    rcases hp with hp | hp <;>
      exact h.endReset hp ⟨rfl, rfl, rfl, rfl⟩ rfl hs (Nat.zero_le _) (by simp)
  | latch n hp hc =>
    have hs : s.status = 0 := (h.in_reset _ hp).2.2
    exact h.endReset hp ⟨rfl, rfl, rfl, rfl⟩ rfl h.status_reserved hc.2 (by simp [State.hasFlag, hs]; omega)
  | refuseCount n hp =>
    exact h.endReset hp ⟨rfl, rfl, rfl, rfl⟩ rfl (setFlag_reserved h.status_reserved .cfgerr) (Nat.zero_le _) (by simp)
  | sendRow p r hp hb =>
    have hlt : p < s.pcount := by
      rcases hb with rfl | hlt
      · exact h.render_panel hp
      · exact hlt
    exact h.sendRow (by simp [hp]) hlt r
  | renderDone hp => exact (h.leaveRender (by simp [hp])).sendRsp _ _
  | renderAborted hp =>
    exact ((h.setFlag (by simp [hp]) (by decide)).leaveRender (by simp [hp])).sendRsp _ _
  | reset => exact assertReset_inv _

/-- Settles O56: a step is a move, and every move keeps the invariant. -/
theorem everyStepKeepsTheInvariant : Obligations.EveryStepKeepsTheInvariant :=
  fun _ _ hi h => move_keeps_inv hi (move_of_step h)

/-- Settles O57: the turns to come are no part of the invariant, which the reset state has. -/
theorem resetHasTheInvariant : Obligations.ResetHasTheInvariant :=
  fun _ => reset_inv.congr ⟨rfl, rfl, rfl, rfl⟩ rfl rfl rfl

end Sys2Proof.Machine
end

section
/-! SUPPORT. Which flags each move sets, and which it leaves (R26, R27). -/

namespace Sys2Proof.Machine

theorem hasFlag_congr {s t : State} (h : t.status = s.status) (f : Flag) : t.hasFlag f = s.hasFlag f := by
  rw [State.hasFlag, State.hasFlag, h]

/-- The event by which performing a word, decoded as `d` in state `s`, sets a flag (R26, R225). -/
def Flag.RaisedBy (d : Option Instr) (s : State) : Flag → Prop
  | .ill => d = none ∨ d = some (.setalign 3)
  | .badw => ∃ g, d = some (.append g) ∧ g.valid = false
  | .ovf => ∃ g, d = some (.append g) ∧ g.valid = true ∧ s.totalWidth < s.cursor + g.width.toNat
  | .range => ∃ r p, d = some (.panelrow r p) ∧ s.pcount ≤ p.toNat
  | .drverr => False
  | .cfgerr => False

/-- A command leaves STATUS alone, or is rejected with a flag whose event has come. -/
theorem exec_status_cases {i : Instr} {s t : State} (h : exec i s = .next t) :
    t.status = s.status ∨ ∃ f : Flag, f.RaisedBy (some i) s ∧ t = s.rejected f := by
  cases i with
  | append g =>
    rcases execAppend_cases g s with ⟨hw, e⟩ | ⟨hw, hc, e⟩ | ⟨_, _, e⟩ <;> simp only [exec, e] at h <;> cases h
    · exact .inr ⟨.badw, ⟨g, rfl, by simp [Glyph.valid]; omega⟩, rfl⟩
    · exact .inr ⟨.ovf, ⟨g, rfl, by simp [Glyph.valid, hw], hc⟩, rfl⟩
    · exact .inl rfl
  | setalign code =>
    rcases execSetalign_cases code s with ⟨rfl, e⟩ | ⟨_, a, _, e⟩ <;> simp only [exec, e] at h <;> cases h
    · exact .inr ⟨.ill, .inr rfl, rfl⟩
    · exact .inl rfl
  | panelrow r p =>
    rcases execPanelrow_cases r p s with ⟨hr, e⟩ | ⟨_, e⟩ <;> simp only [exec, e] at h <;> cases h
    · exact .inr ⟨.range, ⟨r, p, rfl, hr⟩, rfl⟩
    · exact .inl rfl
  | render =>
    rcases execRender_cases s with ⟨_, e⟩ | ⟨_, e⟩ <;> simp only [exec, e] at h <;> cases h <;> exact .inl rfl
  | clear | getalign | getcursor | getpcount | getstatus => cases h; exact .inl rfl

/-- Performing a word leaves STATUS alone, or rejects it with a flag whose event has come. -/
theorem perform_status_cases {cw : CmdWord} {s t : State} (h : perform cw s = .next t) :
    t.status = s.status ∨ ∃ f : Flag, f.RaisedBy (decode cw) s ∧ t = s.rejected f := by
  cases hd : decode cw with
  | none =>
    rw [perform_illegal hd] at h
    cases h
    exact .inr ⟨.ill, .inl rfl, rfl⟩
  | some i => exact exec_status_cases (perform_decoded hd s ▸ h)

/-- A rejection sets its own flag alone (R221). -/
theorem hasFlag_rejected (f g : Flag) (s : State) : (s.rejected f).hasFlag g = (s.hasFlag g || decide (g = f)) :=
  hasFlag_setFlag f g s

/-- An aborted RENDER sets DRVERR alone (R184). -/
theorem hasFlag_renderAborted (g : Flag) (s : State) :
    s.renderAborted.hasFlag g = (s.hasFlag g || decide (g = .drverr)) :=
  hasFlag_setFlag .drverr g s

/-- A failed reset sequence sets DRVERR and CFGERR alone (R263). -/
theorem hasFlag_resetFailed (g : Flag) (s : State) :
    s.resetFailed.hasFlag g = (s.hasFlag g || decide (g = .drverr) || decide (g = .cfgerr)) := by
  change ((s.setFlag .drverr).setFlag .cfgerr).hasFlag g = _
  rw [hasFlag_setFlag, hasFlag_setFlag]

/-- A count that is refused sets CFGERR alone (R265). -/
theorem hasFlag_refuseCount (g : Flag) (s : State) :
    ((s.setFlag .cfgerr).endReset 0).hasFlag g = (s.hasFlag g || decide (g = .cfgerr)) :=
  hasFlag_setFlag .cfgerr g s

/-- No move but a reset clears a flag (R27). -/
theorem move_keeps_flag {s t : State} (m : Move s t) (hn : s.nextTurn.1 ≠ .platform) {f : Flag}
    (hf : s.hasFlag f = true) : t.hasFlag f = true := by
  cases m with
  | accept ha he =>
    rw [← hasFlag_congr ha.status_eq] at hf
    rcases perform_status_cases he with hs | ⟨g, _, rfl⟩
    · rw [hasFlag_congr hs, hf]
    · simp [hasFlag_rejected, hf]
  | resetFailed =>
    have hf : s.turnTaken.hasFlag f = true := hf
    simp [hasFlag_resetFailed, hf]
  | refuseCount =>
    have hf : s.turnTaken.hasFlag f = true := hf
    simp [hasFlag_refuseCount, hf]
  | renderAborted =>
    have hf : s.turnTaken.hasFlag f = true := hf
    simp [hasFlag_renderAborted, hf]
  | reset hr => exact absurd hr hn
  | wait | offer | sendInit | sendQuery | latch | sendRow | renderDone => exact hf

/-- Settles O53: a move keeps every flag, asserting reset clears them all, and CLEAR and GETSTATUS only respond. -/
theorem flagsAreSticky : Obligations.FlagsAreSticky := by
  refine ⟨fun s t h => ⟨fun hn f hf => move_keeps_flag (move_of_step h) hn hf, fun hn f => ?_⟩, ?_⟩
  · rw [step_platform hn] at h
    cases h
    simp [State.hasFlag]
  · rintro s i (rfl | rfl)
    · exact ⟨_, rfl, rfl⟩
    · exact ⟨_, rfl, rfl⟩

/-- Settles O54: the moves that set a flag are a rejected word, a FAIL and a refused count. -/
theorem flagsAreSetOnlyByTheirEvents : Obligations.FlagsAreSetOnlyByTheirEvents := by
  intro s t f h h0 h1
  have hunset : s.turnTaken.hasFlag f = false := h0
  cases move_of_step h with
  | @accept cw s' _ ha he =>
    rw [← hasFlag_congr ha.status_eq] at h0
    rcases perform_status_cases he with hs | ⟨g, hg, rfl⟩
    · rw [hasFlag_congr hs, h0] at h1
      cases h1
    · obtain rfl : f = g := by simpa [hasFlag_rejected, h0] using h1
      cases f with
      | ill => exact .inl ⟨rfl, cw, s', ha, hg⟩
      | badw =>
        obtain ⟨g, hd, hv⟩ := hg
        exact .inr (.inl ⟨rfl, cw, s', g, ha, hd, hv⟩)
      | ovf =>
        obtain ⟨g, hd, hv, hc⟩ := hg
        rw [State.totalWidth, ha.sameBuffer.pcount, ha.sameBuffer.cursor] at hc
        exact .inr (.inr (.inl ⟨rfl, cw, s', g, ha, hd, hv, hc⟩))
      | range =>
        obtain ⟨r, p, hd, hr⟩ := hg
        exact .inr (.inr (.inr (.inl ⟨rfl, cw, s', r, p, ha, hd, ha.sameBuffer.pcount ▸ hr⟩)))
      | drverr => exact hg.elim
      | cfgerr => exact hg.elim
  | resetFailed hp hn =>
    rcases (by simpa [hasFlag_resetFailed, hunset] using h1 : f = .drverr ∨ f = .cfgerr) with rfl | rfl
    · exact .inr (.inr (.inr (.inr (.inl ⟨rfl, hn, hp.imp_right .inl⟩))))
    · exact .inr (.inr (.inr (.inr (.inr ⟨rfl, .inl ⟨hp, hn⟩⟩))))
  | refuseCount n hp hn hc =>
    obtain rfl : f = .cfgerr := by simpa [hasFlag_refuseCount, hunset] using h1
    exact .inr (.inr (.inr (.inr (.inr ⟨rfl, .inr ⟨hp, n, hn, hc⟩⟩))))
  | renderAborted hp hn =>
    obtain rfl : f = .drverr := by simpa [hasFlag_renderAborted, hunset] using h1
    exact .inr (.inr (.inr (.inr (.inl ⟨rfl, hn, .inr (.inr hp)⟩))))
  | reset => simp [State.hasFlag] at h1
  | wait | offer | sendInit | sendQuery | latch | sendRow | renderDone =>
    exact absurd (h0.symm.trans h1) Bool.false_ne_true

end Sys2Proof.Machine
end

section
/-! SUPPORT. Which commands write the buffer and the mode (R21, R23, R24, R120). -/

namespace Sys2Proof.Machine

/-- What a command does to `ROWS` and `CURSOR`: nothing, unless it is CLEAR or an APPEND that fits. -/
theorem exec_rows_cursor {i : Instr} {s t : State} (h : exec i s = .next t) :
    (t.rows = s.rows ∧ t.cursor = s.cursor) ∨ i = .clear ∨
      ∃ g, i = .append g ∧ g.valid = true ∧ s.cursor + g.width.toNat ≤ s.totalWidth := by
  rcases exec_cases h with ⟨_, _, rfl⟩ | ⟨_, rfl⟩ | ⟨hi, _⟩ | ⟨g, hi, hw, hfit, _⟩ | ⟨_, _, rfl⟩ | ⟨_, _, rfl⟩ | ⟨_, _, rfl⟩
  · exact .inl ⟨rfl, rfl⟩
  · exact .inl ⟨rfl, rfl⟩
  · exact .inr (.inl hi)
  · exact .inr (.inr ⟨g, hi, by simp [Glyph.valid, hw], hfit⟩)
  · exact .inl ⟨rfl, rfl⟩
  · exact .inl ⟨rfl, rfl⟩
  · exact .inl ⟨rfl, rfl⟩

/-- What a command does to `ALIGN`: nothing, unless it is SETALIGN of the code that `ALIGN` then holds. -/
theorem exec_align {i : Instr} {s t : State} (h : exec i s = .next t) :
    t.align = s.align ∨ i = .setalign t.align.code := by
  rcases exec_cases h with ⟨_, _, rfl⟩ | ⟨_, rfl⟩ | ⟨_, rfl⟩ | ⟨_, _, _, _, rfl⟩ | ⟨_, hi, rfl⟩ | ⟨_, _, rfl⟩ | ⟨_, _, rfl⟩
  · exact .inl rfl
  · exact .inl rfl
  · exact .inl rfl
  · exact .inl rfl
  · exact .inr hi
  · exact .inl rfl
  · exact .inl rfl

/-- No mode has code 3 (R24). -/
theorem Align.code_ne_three (a : Align) : a.code ≠ 3 := by cases a <;> decide

/-- A move writes no row, cursor or mode unless it performs a command or is a reset. -/
theorem move_buffer {s t : State} (m : Move s t) (hn : s.nextTurn.1 ≠ .platform) :
    (t.rows = s.rows ∧ t.cursor = s.cursor ∧ t.align = s.align) ∨
      ∃ cw s' i, s.Accepts cw s' ∧ decode cw = some i ∧ exec i s' = .next t := by
  cases m with
  | @accept cw s' _ ha he =>
    cases hd : decode cw with
    | none =>
      rw [perform_illegal hd] at he
      cases he
      exact .inl ⟨ha.sameBuffer.rows, ha.sameBuffer.cursor, ha.sameBuffer.align⟩
    | some i => exact .inr ⟨cw, s', i, ha, hd, perform_decoded hd s' ▸ he⟩
  | reset hr => exact absurd hr hn
  | wait | offer | sendInit | sendQuery | resetFailed | latch | refuseCount | sendRow | renderDone | renderAborted =>
    exact .inl ⟨rfl, rfl, rfl⟩

/-- Settles O55: a step that writes the buffer or the mode performs a command, and the command says which it writes. -/
theorem onlyTheirCommandsWriteTheBuffer : Obligations.OnlyTheirCommandsWriteTheBuffer := by
  intro s t h hn
  rcases move_buffer (move_of_step h) hn with ⟨hrows, hcursor, halign⟩ | ⟨cw, s', i, ha, hd, he⟩
  · exact ⟨fun hne => absurd hne (by simp [hrows, hcursor]), fun hne => absurd halign hne⟩
  · have hb := ha.sameBuffer
    refine ⟨fun hne => ⟨cw, s', ha, ?_⟩, fun hne => ⟨cw, s', t.align.code, ha, ?_, t.align.code_ne_three, rfl⟩⟩
    · rcases exec_rows_cursor he with ⟨hrows, hcursor⟩ | rfl | ⟨g, rfl, hv, hfit⟩
      · exact absurd hne (by simp [hrows, hcursor, hb.rows, hb.cursor])
      · exact .inl hd
      · rw [State.totalWidth, hb.pcount, hb.cursor] at hfit
        exact .inr ⟨g, hd, hv, hfit⟩
    · rcases exec_align he with halign | rfl
      · exact absurd (halign.trans hb.align) hne
      · exact hd

end Sys2Proof.Machine
end

section
/-! SUPPORT. What two states that differ in `RP` and `RR` alone do (R32). -/

namespace Sys2Proof.Machine

/-- The results of two steps that began with different render counters: the states still differ in them alone, outside
RENDERING, or they are equal. -/
def CounterHidden (a b : Result) : Prop :=
  ∀ s t, a = .next s → b = .next t → (s.phase ≠ .rendering ∧ s.sameButCounter t) ∨ s = t

theorem counterHidden_next {s t : State} (hp : s.phase ≠ .rendering) (h : s.sameButCounter t) :
    CounterHidden (.next s) (.next t) := by
  intro s' t' hs ht
  cases hs
  cases ht
  exact .inl ⟨hp, h⟩

theorem counterHidden_refl (a : Result) : CounterHidden a a := by
  rintro s t rfl ht
  cases ht
  exact .inr rfl

/-- The same check, made in both states. -/
theorem counterHidden_ite {c : Prop} [Decidable c] {a b a' b' : Result} (ha : CounterHidden a a')
    (hb : CounterHidden b b') : CounterHidden (if c then a else b) (if c then a' else b') := by
  split
  · exact ha
  · exact hb

/-- The FBC in IDLE performs the word on the port (R33). -/
theorem fbcTurn_idle {s : State} {cw : CmdWord} {rest : List CmdWord} (hp : s.phase = .idle)
    (ho : s.offered = cw :: rest) : fbcTurn s = perform cw { s with offered := rest } := by
  simp only [fbcTurn, hp, ho]

/-- The state with another render counter. -/
abbrev State.withCounter (p : Nat) (r : Fin 8) (s : State) : State := { s with rp := p, rr := r }

section Turns
variable {s : State} (p : Nat) (r : Fin 8)

/-- A command performed in IDLE does not read the counter, and RENDER overwrites it (R182). -/
theorem exec_counterHidden (hp : s.phase = .idle) (i : Instr) : CounterHidden (exec i s) (exec i (s.withCounter p r)) := by
  have hp : s.phase ≠ .rendering := by simp [hp]
  cases i with
  | append g =>
    exact counterHidden_ite (counterHidden_next hp rfl)
      (counterHidden_ite (counterHidden_next hp rfl) (counterHidden_next hp rfl))
  | setalign code =>
    simp only [exec, execSetalign]
    split <;> exact counterHidden_next hp rfl
  | panelrow r p => exact counterHidden_ite (counterHidden_next hp rfl) (counterHidden_next hp rfl)
  | render => exact counterHidden_refl _
  | clear | getalign | getcursor | getpcount | getstatus => exact counterHidden_next hp rfl

/-- A word performed in IDLE, legal or not, does not read the counter. -/
theorem perform_counterHidden (hp : s.phase = .idle) (cw : CmdWord) :
    CounterHidden (perform cw s) (perform cw (s.withCounter p r)) := by
  cases hd : decode cw with
  | none =>
    rw [perform_illegal hd, perform_illegal hd]
    exact counterHidden_next (by simp [hp]) rfl
  | some i =>
    rw [perform_decoded hd, perform_decoded hd]
    exact exec_counterHidden p r hp i

variable (hp : s.phase ≠ .rendering)
include hp

/-- The FBC's turn outside RENDERING does not read the counter. -/
theorem fbcTurn_counterHidden : CounterHidden (fbcTurn s) (fbcTurn (s.withCounter p r)) := by
  cases hph : s.phase with
  | resetSeq place => cases place <;> simp only [fbcTurn, hph] <;> exact counterHidden_next (by simp [hph]) rfl
  | rendering => exact absurd hph hp
  | idle =>
    cases ho : s.offered with
    | nil =>
      simp only [fbcTurn, hph, ho]
      exact counterHidden_next hp rfl
    | cons cw rest =>
      rw [fbcTurn_idle hph ho, fbcTurn_idle (s := s.withCounter p r) hph ho]
      exact perform_counterHidden (s := { s with offered := rest }) p r hph cw

/-- An answer of the driver to the reset sequence, or to nothing, does not read the counter. -/
theorem driverAnswers_counterHidden (a : DrvAns) :
    CounterHidden (.next (s.driverAnswers a)) (.next ((s.withCounter p r).driverAnswers a)) := by
  cases hph : s.phase with
  | resetSeq place =>
    cases place with
    | start =>
      simp only [State.driverAnswers, hph]
      exact counterHidden_next hp rfl
    | initSent => cases a <;> simp only [State.driverAnswers, hph] <;> exact counterHidden_next (by simp [hph]) rfl
    | querySent =>
      cases a with
      | count n =>
        simp only [State.driverAnswers, State.latchCount, hph]
        split <;> exact counterHidden_next (by simp) rfl
      | ok | fail => simp only [State.driverAnswers, hph]; exact counterHidden_next (by simp [hph]) rfl
  | rendering => exact absurd hph hp
  | idle =>
    simp only [State.driverAnswers, hph]
    exact counterHidden_next hp rfl

/-- A turn of any agent outside RENDERING does not read the counter. -/
theorem takeTurn_counterHidden (x : Turn) : CounterHidden (s.takeTurn x) ((s.withCounter p r).takeTurn x) := by
  cases x with
  | fbc => exact fbcTurn_counterHidden p r hp
  | host cw => exact counterHidden_next hp rfl
  | driver a => exact driverAnswers_counterHidden p r hp a
  | lateDriver a => exact counterHidden_next hp rfl
  | platform => exact counterHidden_refl _

/-- A step outside RENDERING does not read the counter. -/
theorem step_counterHidden : CounterHidden (step s) (step (s.withCounter p r)) :=
  takeTurn_counterHidden (s := s.turnTaken) p r hp s.nextTurn.1

end Turns

/-- Settles O59: no turn outside RENDERING reads the counter, and entering RENDERING overwrites it. -/
theorem renderCounterIsUnobservable : Obligations.RenderCounterIsUnobservable := by
  intro s t s' t' hp h hs ht
  rw [← h] at ht
  rcases step_counterHidden _ _ hp s' t' hs ht with ⟨hp', hsame⟩ | rfl
  · exact ⟨hsame, fun hr => absurd hr hp'⟩
  · exact ⟨rfl, fun _ => rfl⟩

end Sys2Proof.Machine
end

section
/-! SUPPORT. Which moves send a response (R33, R62, R86). -/

namespace Sys2Proof.Machine

/-- A command performed in IDLE ends there with one response, or is a RENDER that has begun. -/
theorem exec_response {i : Instr} {s t : State} (hp : s.phase = .idle) (h : exec i s = .next t) :
    (t.phase = .idle ∧ ∃ rsp, t.responses = s.responses ++ [rsp]) ∨
      (i = .render ∧ s.pcount ≠ 0 ∧ t.phase = .rendering ∧ t.responses = s.responses) := by
  rcases exec_cases h with ⟨_, _, rfl⟩ | ⟨_, rfl⟩ | ⟨_, rfl⟩ | ⟨_, _, _, _, rfl⟩ | ⟨_, _, rfl⟩ | ⟨_, _, rfl⟩ | ⟨hi, hne, rfl⟩
  · exact .inl ⟨hp, _, rfl⟩
  · exact .inl ⟨hp, _, rfl⟩
  · exact .inl ⟨hp, _, rfl⟩
  · exact .inl ⟨hp, _, rfl⟩
  · exact .inl ⟨hp, _, rfl⟩
  · exact .inl ⟨rfl, _, rfl⟩
  · exact .inr ⟨hi, hne, rfl, rfl⟩

/-- Every command answers a next state (R220, R221). -/
theorem exec_total (i : Instr) (s : State) : ∃ t, exec i s = .next t := by
  cases i with
  | append g => rcases execAppend_cases g s with ⟨_, e⟩ | ⟨_, _, e⟩ | ⟨_, _, e⟩ <;> exact ⟨_, e⟩
  | setalign code => rcases execSetalign_cases code s with ⟨_, e⟩ | ⟨_, _, _, e⟩ <;> exact ⟨_, e⟩
  | panelrow r p => rcases execPanelrow_cases r p s with ⟨_, e⟩ | ⟨_, e⟩ <;> exact ⟨_, e⟩
  | clear | getalign | render | getcursor | getpcount | getstatus => exact ⟨_, rfl⟩

/-- An accepted word is answered at once, or is a RENDER that has begun (R33, R86). -/
theorem accepts_response {s s' : State} {cw : CmdWord} (ha : s.Accepts cw s') :
    ∃ t, step s = .next t ∧
      ((t.phase = .idle ∧ ∃ rsp, t.responses = s.responses ++ [rsp]) ∨
        (decode cw = some .render ∧ s.pcount ≠ 0 ∧ t.phase = .rendering ∧ t.responses = s.responses)) := by
  rw [step_accepts ha, ← ha.responses_eq, ← ha.sameBuffer.pcount]
  cases hd : decode cw with
  | none => exact ⟨_, perform_illegal hd s', .inl ⟨ha.phase_idle, _, rfl⟩⟩
  | some i =>
    obtain ⟨t, he⟩ := exec_total i s'
    refine ⟨t, perform_decoded hd s' ▸ he, ?_⟩
    simpa using exec_response ha.phase_idle he

/-- A step in RENDERING goes on without a response, or ends the RENDER with one (R182, R184). -/
theorem rendering_response {s t : State} (hp : s.phase = .rendering) (hn : s.nextTurn.1 ≠ .platform)
    (h : step s = .next t) :
    (t.phase = .rendering ∧ t.responses = s.responses) ∨
      (t.phase = .idle ∧ ∃ rsp, t.responses = s.responses ++ [rsp]) := by
  rcases step_rendering_cases hp hn h with ⟨_, _, rfl⟩ | ⟨_, rfl⟩ | ⟨_, rfl⟩
  · exact .inl ⟨hp, rfl⟩
  · rcases renderNext_cases s.turnTaken with ⟨_, e⟩ | ⟨_, _, e⟩ | ⟨_, _, e⟩ <;> rw [e]
    · exact .inl ⟨rfl, rfl⟩
    · exact .inl ⟨rfl, rfl⟩
    · exact .inr ⟨rfl, _, rfl⟩
  · exact .inr ⟨rfl, _, rfl⟩

/-- A move that accepts no word, outside RENDERING, sends no response. -/
theorem move_silent {s t : State} (m : Move s t) (hp : s.phase ≠ .rendering) (hna : ∀ cw s', ¬ s.Accepts cw s') :
    t.responses = s.responses := by
  cases m with
  | accept ha => exact absurd ha (hna _ _)
  | sendRow _ _ hr | renderDone hr | renderAborted hr => exact absurd hr hp
  | wait | offer | sendInit | sendQuery | resetFailed | latch | refuseCount | reset => rfl

/-- At the end of a run (R276): IDLE, no word of the host to come, no command unanswered or lost. -/
theorem runEnded_iff (s : State) :
    s.runEnded = true ↔ s.phase = .idle ∧ hostWords s.agenda = [] ∧ s.unanswered = 0 ∧ s.lost = 0 := by
  simp [State.runEnded, State.hostDone, and_assoc]

/-- At the end of a run from reset each command of the host's list has its response, by the count of commands. -/
theorem runEnded_responses {turns : List Turn} {k : Nat} {t : State}
    (h : runSteps k { State.reset with agenda := turns } = .next t) (he : t.runEnded = true) :
    t.phase = .idle ∧ t.offered = [] ∧ t.responses.length = (hostWords turns).length := by
  obtain ⟨hp, hwords, hun, hlost⟩ := (runEnded_iff t).1 he
  have hstart : State.commandCount { State.reset with agenda := turns } = 0 := rfl
  have hcount := runSteps_commandCount k h
  rw [hstart, State.commandCount, hwords, hun, hlost] at hcount
  rw [unanswered_idle hp] at hun
  exact ⟨hp, List.length_eq_zero_iff.1 hun, by simpa using hcount⟩

/-- Settles O20: an accepted word, a step in RENDERING, a step that does neither, and the count over a whole run. -/
theorem acceptedWordGetsOneResponse : Obligations.AcceptedWordGetsOneResponse := by
  refine ⟨fun s s' cw ha => accepts_response ha, fun s t hp hn h => rendering_response hp hn h, ?_,
    fun turns k t h he => runEnded_responses h he⟩
  rintro s t (hn | ⟨hp, hna⟩) h
  · rw [step_platform hn] at h
    cases h
    rfl
  · exact move_silent (move_of_step h) hp hna

end Sys2Proof.Machine
end

section
/-! SUPPORT. The command that a step runs (R33, R83). -/

namespace Sys2Proof.Machine

/-- Settles O17: accepting a word performs it, and performing a decoded word runs its command. -/
theorem stepRunsTheDecodedCommand : Obligations.StepRunsTheDecodedCommand :=
  fun _ s' _ _ ha hd => (step_accepts ha).trans (perform_decoded hd s')

end Sys2Proof.Machine
end

section
/-! SUPPORT. The bytes that carry a word and a response (R55). -/

namespace Sys2Proof

/-- Bit `j` of byte `k` of a word is its bit `8k + j`. -/
theorem wordByte_bit (cw : CmdWord) (k : Nat) {j : Nat} (hj : j < 8) :
    (wordByte cw k).getLsbD j = cw.getLsbD (8 * k + j) := by
  simp [wordByte, hj]

/-- Bit `j` of byte `k` of a response is its bit `8k + j`. -/
theorem rspByte_bit (rsp : Rsp) (k : Nat) {j : Nat} (hj : j < 8) :
    (rspByte rsp k).getLsbD j = rsp.getLsbD (8 * k + j) := by
  simp [rspByte, hj]

theorem bytesOfWord_length (cw : CmdWord) : (bytesOfWord cw).length = 9 := rfl

theorem bytesOfRsp_length (rsp : Rsp) : (bytesOfRsp rsp).length = 4 := rfl

theorem bytesOfWord_getElem? (cw : CmdWord) {k : Nat} (hk : k < 9) : (bytesOfWord cw)[k]? = some (wordByte cw k) := by
  simp [bytesOfWord, hk]

theorem bytesOfRsp_getElem? (rsp : Rsp) {k : Nat} (hk : k < 4) : (bytesOfRsp rsp)[k]? = some (rspByte rsp k) := by
  simp [bytesOfRsp, hk]

/-- The byte just below a part of a word extends that part by eight bits. -/
theorem extractLsb'_append_wordByte (cw : CmdWord) (k n : Nat) :
    cw.extractLsb' (8 * (k + 1)) n ++ wordByte cw k = cw.extractLsb' (8 * k) (n + 8) := by
  apply BitVec.eq_of_getLsbD_eq
  intro j hj
  rw [BitVec.getLsbD_append]
  split
  · rename_i hlow
    simp [wordByte_bit _ _ hlow, hj]
  · have hplace : 8 * (k + 1) + (j - 8) = 8 * k + j := by omega
    have hin : j - 8 < n := by omega
    simp [hplace, hin, hj]

/-- The nine bytes of a word, byte 8 the highest, make the word. -/
theorem wordBytes_append (cw : CmdWord) :
    wordByte cw 8 ++ wordByte cw 7 ++ wordByte cw 6 ++ wordByte cw 5 ++ wordByte cw 4 ++ wordByte cw 3 ++
      wordByte cw 2 ++ wordByte cw 1 ++ wordByte cw 0 = cw := by
  have htop : wordByte cw 8 = cw.extractLsb' (8 * (7 + 1)) 8 := rfl
  rw [htop]
  iterate 8 rw [extractLsb'_append_wordByte]
  exact BitVec.extractLsb'_eq_self

/-- The nine bytes of a word give it back, whatever comes after them. -/
theorem takeWord_bytesOfWord (cw : CmdWord) (rest : List Byte) : takeWord (bytesOfWord cw ++ rest) = some (cw, rest) :=
  congrArg (fun w => some (w, rest)) (wordBytes_append cw)

/-- Byte `r + 1` of a word is byte `r` of its payload (R71). -/
theorem wordByte_succ (cw : CmdWord) (r : Fin 8) : wordByte cw (r.val + 1) = payloadByte (payload cw) r := by
  apply BitVec.eq_of_getLsbD_eq
  intro j hj
  have hin : 8 * r.val + j < 64 := by omega
  have hplace : 8 * (r.val + 1) + j = 8 + (8 * r.val + j) := by omega
  rw [wordByte_bit _ _ hj, hplace]
  simp [payloadByte, payload, hj, hin]

/-- Byte `r + 1` of an APPEND's word is glyph row `r` (R74). -/
theorem wordByte_append (g : Glyph) (r : Fin 8) : wordByte (encode (.append g)) (r.val + 1) = g.rows[r] := by
  obtain ⟨_, _, hpayload⟩ := Laws.FieldPlaces.append g
  rw [wordByte_succ, hpayload]
  exact payloadByte_glyph g r

/-- Settles O5: the bytes of a word and of a response bit by bit, the word from its bytes, and the rows among them. -/
theorem bytesCarryTheWord : Obligations.BytesCarryTheWord := by
  refine ⟨takeWord_bytesOfWord, fun cw k j hk hj => ⟨bytesOfWord_length cw, ?_⟩,
    fun rsp k j hk hj => ⟨bytesOfRsp_length rsp, ?_⟩, fun g r => ?_⟩
  · rw [bytesOfWord_getElem? cw hk, Option.map_some, wordByte_bit cw k hj]
  · rw [bytesOfRsp_getElem? rsp hk, Option.map_some, rspByte_bit rsp k hj]
  · rw [bytesOfWord_getElem? _ (by omega), wordByte_append]

end Sys2Proof
end

section
/-! SUPPORT. What the reading commands do, and do again (R58, R167). -/

namespace Sys2Proof

/-- The commands that read the state (R58). -/
def Instr.Reads (i : Instr) : Prop :=
  i = .getalign ∨ i = .getcursor ∨ i = .getpcount ∨ i = .getstatus ∨ ∃ r p, i = .panelrow r p

end Sys2Proof

namespace Sys2Proof.Machine

theorem State.SameBuffer.refl (s : State) : s.SameBuffer s := ⟨rfl, rfl, rfl, rfl⟩

/-- A response leaves the buffer (R86). -/
theorem sameBuffer_sendRsp (b : Bool) (d : BitVec 24) (s : State) : s.SameBuffer (s.sendRsp b d) := ⟨rfl, rfl, rfl, rfl⟩

/-- A response leaves the ports but for itself (R86). -/
theorem samePorts_sendRsp (b : Bool) (d : BitVec 24) (s : State) : s.SamePorts (s.sendRsp b d) := ⟨rfl, rfl, rfl, rfl⟩

/-- Setting a flag twice is setting it once (R27). -/
theorem rejected_rejected_status (f : Flag) (s : State) : ((s.rejected f).rejected f).status = (s.rejected f).status := by
  simp [BitVec.or_assoc]

/-- In every state with the buffer and the flags of `s` a reading command sends one and the same response, or it is a
PANELROW out of range and is rejected in each. -/
theorem exec_of_reads {i : Instr} (hi : i.Reads) (s : State) :
    ((∀ r p, i = .panelrow r p → p.toNat < s.pcount) ∧
        ∃ d, ∀ u, s.SameBuffer u → u.status = s.status → exec i u = .next (u.sendRsp false d)) ∨
      ((∃ r p, i = .panelrow r p ∧ s.pcount ≤ p.toNat) ∧
        ∀ u, s.SameBuffer u → exec i u = .next (u.rejected .range)) := by
  rcases hi with rfl | rfl | rfl | rfl | ⟨r, p, rfl⟩
  · exact .inl ⟨by simp, zext24 s.align.code.toNat, fun u hb _ => by rw [← hb.align]; rfl⟩
  · exact .inl ⟨by simp, zext24 s.cursor, fun u hb _ => by rw [← hb.cursor]; rfl⟩
  · exact .inl ⟨by simp, zext24 s.pcount, fun u hb _ => by rw [← hb.pcount]; rfl⟩
  · exact .inl ⟨by simp, zext24 s.statusRead.toNat, fun u _ hs => by rw [State.statusRead, ← hs]; rfl⟩
  · by_cases hr : s.pcount ≤ p.toNat
    · exact .inr ⟨⟨r, p, rfl, hr⟩, fun u hb => if_pos (hb.pcount ▸ hr)⟩
    · refine .inl ⟨fun r' p' he => ?_, zext24 (s.pbyte p.toNat r).toNat, fun u hb _ => ?_⟩
      · cases he
        exact Nat.lt_of_not_le hr
      · rw [← pbyte_congr hb]
        exact if_neg (hb.pcount ▸ hr)

/-- Settles O41: a response leaves the buffer and the flags, so the command reads the same again; a rejection leaves the
buffer, so the command is rejected again. -/
theorem readsAreIdempotent : Obligations.ReadsAreIdempotent := by
  intro s i hi
  rcases exec_of_reads hi s with ⟨hin, d, he⟩ | ⟨⟨r, p, rfl, hout⟩, he⟩
  · have hfirst := sameBuffer_sendRsp false d s
    have hports := samePorts_sendRsp false d
    refine ⟨s.sendRsp false d, (s.sendRsp false d).sendRsp false d, Rsp.make false d, he s (.refl s) rfl, he _ hfirst rfl,
      rfl, rfl, hfirst, hports s, sameBuffer_sendRsp false d _, hports _, rfl, fun _ => rfl, fun r p hp hout => ?_⟩
    exact absurd (hin r p hp) (Nat.not_lt.2 hout)
  · have hfirst := rejected_from .range s
    have hagain := rejected_from .range (s.rejected .range)
    refine ⟨s.rejected .range, (s.rejected .range).rejected .range, _, he s (.refl s), he _ hfirst.buffer,
      hfirst.response, hagain.response, hfirst.buffer, hfirst.ports, hagain.buffer, hagain.ports,
      rejected_rejected_status .range s, fun hin => ?_, fun _ _ _ _ => hfirst.flag_set⟩
    exact absurd (hin r p rfl) (Nat.not_lt.2 hout)

end Sys2Proof.Machine
end

section
/-! SUPPORT. The driver requests that a step sends (R57). -/

namespace Sys2Proof.Machine

/-- A request of the reset sequence, or a ROWSET for one of eight rows and of `n` panels, both counted from 1 (R57, R181). -/
def DrvReq.InRange (n : Nat) (q : DrvReq) : Prop :=
  q = .init ∨ q = .query ∨
    ∃ row v panel, q = .rowset row v panel ∧ 1 ≤ row ∧ row ≤ 8 ∧ 1 ≤ panel ∧ panel ≤ n

/-- The request for a panel of the chain is in range (R181). -/
theorem rowset_inRange (s : State) {p n : Nat} (hp : p < n) (r : Fin 8) : (s.rowset p r).InRange n :=
  .inr (.inr ⟨r.val + 1, s.pbyte p r, p + 1, rfl, Nat.le_add_left 1 _, r.isLt, Nat.le_add_left 1 _, hp⟩)

/-- A command sends no request, unless it is a RENDER of a chain with panels, which sends its first byte (R182). -/
theorem exec_requests {i : Instr} {s t : State} (h : exec i s = .next t) :
    t.requests = s.requests ∨
      (s.pcount ≠ 0 ∧ t.pcount = s.pcount ∧ t.requests = s.requests ++ [s.rowset 0 0]) := by
  rcases exec_cases h with ⟨_, _, rfl⟩ | ⟨_, rfl⟩ | ⟨_, rfl⟩ | ⟨_, _, _, _, rfl⟩ | ⟨_, _, rfl⟩ | ⟨_, _, rfl⟩ | ⟨_, hne, rfl⟩
  · exact .inl rfl
  · exact .inl rfl
  · exact .inl rfl
  · exact .inl rfl
  · exact .inl rfl
  · exact .inl rfl
  · exact .inr ⟨hne, rfl, rfl⟩

/-- Accepting a word sends no request. -/
theorem State.Accepts.requests_eq {s s' : State} {cw : CmdWord} (h : s.Accepts cw s') : s'.requests = s.requests := by
  obtain ⟨_, _, _, _, _, rfl⟩ := h
  rfl

/-- The panel that a RENDER goes on with is one of the chain (R185). -/
theorem State.Inv.panel_lt {s : State} {p : Nat} (hi : s.Inv) (hp : s.phase = .rendering)
    (hb : p = s.rp ∨ p < s.pcount) : p < s.pcount := by
  rcases hb with rfl | hlt
  · exact hi.render_panel hp
  · exact hlt

/-- A word performed sends at most one request, and that in range. -/
theorem perform_requests {cw : CmdWord} {s t : State} (h : perform cw s = .next t) :
    t.requests = s.requests ∨ ∃ q, t.requests = s.requests ++ [q] ∧ q.InRange t.pcount := by
  cases hd : decode cw with
  | none =>
    rw [perform_illegal hd] at h
    cases h
    exact .inl rfl
  | some i =>
    rcases exec_requests (perform_decoded hd s ▸ h) with hq | ⟨hne, hcount, hq⟩
    · exact .inl hq
    · exact .inr ⟨_, hq, rowset_inRange s (hcount ▸ Nat.pos_of_ne_zero hne) 0⟩

/-- A move sends at most one request, and that in range. -/
theorem move_requests {s t : State} (hi : s.Inv) (m : Move s t) :
    t.requests = s.requests ∨ ∃ q, t.requests = s.requests ++ [q] ∧ q.InRange t.pcount := by
  cases m with
  | accept ha he => simpa only [ha.requests_eq] using perform_requests he
  | sendInit => exact .inr ⟨.init, rfl, .inl rfl⟩
  | sendQuery => exact .inr ⟨.query, rfl, .inr (.inl rfl)⟩
  | sendRow p r hp hb => exact .inr ⟨_, rfl, rowset_inRange _ (hi.panel_lt hp hb) r⟩
  | wait | offer | resetFailed | latch | refuseCount | renderDone | renderAborted | reset => exact .inl rfl

/-- Settles O49: a step is a move, and a ROWSET is sent for a panel that the invariant puts in the chain. -/
theorem driverRequestsAreInRange : Obligations.DriverRequestsAreInRange :=
  fun _ _ hi h => move_requests hi (move_of_step h)

end Sys2Proof.Machine
end

section
/-! SUPPORT. A command and its word determine each other (R83 to R85). -/

namespace Sys2Proof

/-! The parts of a field. -/

/-- A field is a part extended by zeros when its upper bits are 0 and its lower bits are the part. -/
theorem eq_zero_append_iff {m n : Nat} (x : BitVec (m + n)) (y : BitVec n) :
    x = 0#m ++ y ↔ x.extractLsb' n m = 0 ∧ x.extractLsb' 0 n = y := by
  constructor
  · rintro rfl
    exact ⟨BitVec.extractLsb'_append_eq_left, BitVec.extractLsb'_append_eq_right⟩
  · rintro ⟨hhigh, rfl⟩
    have hsplit : x.extractLsb' n m ++ x.extractLsb' 0 n = x := by
      rw [BitVec.extractLsb'_append_extractLsb'_eq_extractLsb' (Nat.zero_add n).symm, BitVec.extractLsb'_eq_self]
    rwa [hhigh, eq_comm] at hsplit

/-- The eight bytes of a payload make the payload (R74). -/
theorem glyphPayload_payloadByte (w : BitVec 4) (d : BitVec 64) :
    Glyph.payload { width := w, rows := Vector.ofFn (payloadByte d) } = d := by
  simp only [Glyph.payload, Vector.getElem_ofFn, payloadByte]
  iterate 7 rw [BitVec.extractLsb'_append_extractLsb'_eq_extractLsb' (by rfl)]
  exact BitVec.extractLsb'_eq_self

/-- The rows that a glyph's payload carries are the glyph's (R74). -/
theorem ofFn_payloadByte_payload (g : Glyph) : Vector.ofFn (payloadByte g.payload) = g.rows := by
  apply Vector.ext
  intro r hr
  rw [Vector.getElem_ofFn]
  exact payloadByte_glyph g ⟨r, hr⟩

/-! Decoding, format by format. -/

/-- Format N: the argument and the payload are 0 (R73). -/
theorem decodeN_eq_some {cw : CmdWord} {i j : Instr} :
    decodeN cw i = some j ↔ j = i ∧ argField cw = 0 ∧ payload cw = 0 := by
  rw [decodeN, Option.ite_none_right_eq_some, Option.some_inj, and_comm, eq_comm]

/-- Format G: the argument is the width and the payload the rows (R74). -/
theorem decodeG_eq_some {cw : CmdWord} {i : Instr} :
    decodeG cw = some i ↔ ∃ g, i = .append g ∧ argField cw = g.width ∧ payload cw = g.payload := by
  constructor
  · rintro ⟨⟩
    exact ⟨_, rfl, rfl, (glyphPayload_payloadByte _ _).symm⟩
  · rintro ⟨g, rfl, hwidth, hrows⟩
    rw [decodeG, hwidth, hrows, ofFn_payloadByte_payload]

/-- Format S: the argument is the code and the payload 0 (R75). -/
theorem decodeS_eq_some {cw : CmdWord} {i : Instr} :
    decodeS cw = some i ↔ ∃ code, i = .setalign code ∧ argField cw = 0#2 ++ code ∧ payload cw = 0 := by
  simp only [decodeS, Option.ite_none_right_eq_some, Option.some_inj]
  constructor
  · rintro ⟨⟨harg, hd⟩, rfl⟩
    exact ⟨_, rfl, (eq_zero_append_iff _ _).2 ⟨harg, rfl⟩, hd⟩
  · rintro ⟨code, rfl, harg, hd⟩
    obtain ⟨hhigh, hcode⟩ := (eq_zero_append_iff (m := 2) (n := 2) _ code).1 harg
    exact ⟨⟨hhigh, hd⟩, congrArg _ hcode⟩

/-- Format R: the argument is the row and the payload the panel (R76). -/
theorem decodeR_eq_some {cw : CmdWord} {i : Instr} :
    decodeR cw = some i ↔
      ∃ r p, i = .panelrow r p ∧ argField cw = 0#1 ++ BitVec.ofNat 3 r.val ∧ payload cw = 0#48 ++ p := by
  simp only [decodeR, Option.ite_none_right_eq_some, Option.some_inj]
  constructor
  · rintro ⟨⟨harg, hd⟩, rfl⟩
    have hrow (x : BitVec 3) : x = BitVec.ofNat 3 x.toNat := by simp
    exact ⟨_, _, rfl, (eq_zero_append_iff _ _).2 ⟨harg, hrow _⟩, (eq_zero_append_iff _ _).2 ⟨hd, rfl⟩⟩
  · rintro ⟨r, p, rfl, harg, hd⟩
    obtain ⟨hargHigh, hr⟩ := (eq_zero_append_iff (m := 1) (n := 3) _ _).1 harg
    obtain ⟨hdHigh, hp⟩ := (eq_zero_append_iff (m := 48) (n := 16) _ p).1 hd
    refine ⟨⟨hargHigh, hdHigh⟩, ?_⟩
    rw [hr, hp]
    simp

/-! Decoding a whole word. -/

/-- The fields of a command's word (R71, R72). -/
theorem fields_encode (i : Instr) :
    opField (encode i) = i.opcode ∧ argField (encode i) = i.argument ∧ payload (encode i) = i.payload :=
  Laws.FieldPlaces.ofFields_fields _ _ _

/-- A word with the fields of a command is the command's word. -/
theorem encode_eq_of_fields {cw : CmdWord} {i : Instr} (hop : opField cw = i.opcode) (harg : argField cw = i.argument)
    (hd : payload cw = i.payload) : encode i = cw := by
  rw [encode, ← hop, ← harg, ← hd, ofFields_self]

/-- The word of a command decodes to it: its opcode chooses the format, and the format reads its operands back. -/
theorem decode_encode (i : Instr) : decode (encode i) = some i := by
  obtain ⟨hop, harg, hd⟩ := fields_encode i
  rw [decode, hop]
  cases i with
  | append g => exact decodeG_eq_some.2 ⟨g, rfl, harg, hd⟩
  | setalign code => exact decodeS_eq_some.2 ⟨code, rfl, harg, hd⟩
  | panelrow r p => exact decodeR_eq_some.2 ⟨r, p, rfl, harg, hd⟩
  | clear | getalign | render | getcursor | getpcount | getstatus => exact decodeN_eq_some.2 ⟨rfl, harg, hd⟩

/-- A word that decodes to a command has the command's three fields. -/
theorem encode_of_decode {cw : CmdWord} {i : Instr} (h : decode cw = some i) : encode i = cw := by
  unfold decode at h
  split at h
  case h_2 hop =>
    obtain ⟨g, rfl, harg, hd⟩ := decodeG_eq_some.1 h
    exact encode_eq_of_fields hop harg hd
  case h_3 hop =>
    obtain ⟨code, rfl, harg, hd⟩ := decodeS_eq_some.1 h
    exact encode_eq_of_fields hop harg hd
  case h_5 hop =>
    obtain ⟨r, p, rfl, harg, hd⟩ := decodeR_eq_some.1 h
    exact encode_eq_of_fields hop harg hd
  case h_10 => cases h
  case h_1 hop | h_4 hop | h_6 hop | h_7 hop | h_8 hop | h_9 hop =>
    obtain ⟨rfl, harg, hd⟩ := decodeN_eq_some.1 h
    exact encode_eq_of_fields hop harg hd

/-- A word decodes to a command exactly when it is the command's word. -/
theorem decode_eq_some_iff {cw : CmdWord} {i : Instr} : decode cw = some i ↔ encode i = cw := by
  refine ⟨encode_of_decode, ?_⟩
  rintro rfl
  exact decode_encode i

/-- Settles O1: the opcode chooses the format, and the format reads the operands back. -/
theorem decodeOfEncodeIsTheCommand : Obligations.DecodeOfEncodeIsTheCommand := decode_encode

/-- Settles O2: a decoded word has the fields of the command's word, and a word is made of its fields. -/
theorem encodeOfDecodeIsTheWord : Obligations.EncodeOfDecodeIsTheWord := fun _ _ => encode_of_decode

/-- Settles O4: each word is the encoding of its command, and the other two have a reserved opcode and a reserved bit. -/
theorem wordsWrittenOutDecode : Obligations.WordsWrittenOutDecode := by
  unfold Obligations.WordsWrittenOutDecode
  simp only [decode_eq_some_iff]
  decide

end Sys2Proof
end

section
/-! SUPPORT. The rows of the opcode table: which fields make a word a command's (R72, R83, R85). -/

namespace Sys2Proof

/-- A word is an APPEND when it has its opcode. -/
theorem decode_append_iff {cw : CmdWord} : (∃ g, decode cw = some (.append g)) ↔ opField cw = 2 := by
  constructor
  · rintro ⟨g, h⟩
    rw [← encode_of_decode h]
    exact opField_ofFields _ _ _
  · intro hop
    rw [decode, hop]
    exact ⟨_, rfl⟩

/-- A word is a SETALIGN when it has its opcode and 0 in the reserved fields of format S. -/
theorem decode_setalign_iff {cw : CmdWord} :
    (∃ code, decode cw = some (.setalign code)) ↔
      opField cw = 3 ∧ (argField cw).extractLsb' 2 2 = 0 ∧ payload cw = 0 := by
  constructor
  · rintro ⟨code, h⟩
    obtain ⟨hop, harg, hd⟩ := fields_encode (.setalign code)
    rw [encode_of_decode h] at hop harg hd
    exact ⟨hop, ((eq_zero_append_iff (m := 2) (n := 2) _ _).1 harg).1, hd⟩
  · rintro ⟨hop, hreserved⟩
    rw [decode, hop]
    exact ⟨_, if_pos hreserved⟩

/-- A word is a PANELROW when it has its opcode and 0 in the reserved fields of format R. -/
theorem decode_panelrow_iff {cw : CmdWord} :
    (∃ r p, decode cw = some (.panelrow r p)) ↔
      opField cw = 5 ∧ (argField cw).extractLsb' 3 1 = 0 ∧ (payload cw).extractLsb' 16 48 = 0 := by
  constructor
  · rintro ⟨r, p, h⟩
    obtain ⟨hop, harg, hd⟩ := fields_encode (.panelrow r p)
    rw [encode_of_decode h] at hop harg hd
    exact ⟨hop, ((eq_zero_append_iff (m := 1) (n := 3) _ _).1 harg).1,
      ((eq_zero_append_iff (m := 48) (n := 16) _ _).1 hd).1⟩
  · rintro ⟨hop, hreserved⟩
    rw [decode, hop]
    exact ⟨_, _, if_pos hreserved⟩

/-! Masks. -/

/-- A mask of all upper bits leaves 0 exactly when the upper bits are 0. -/
theorem and_highOnes_eq_zero_iff {m n : Nat} (x : BitVec (m + n)) :
    x &&& (BitVec.allOnes m ++ 0#n) = 0 ↔ x.extractLsb' n m = 0 := by
  have hlow : (x &&& (BitVec.allOnes m ++ 0#n)).extractLsb' 0 n = 0#n := by
    rw [BitVec.extractLsb'_and, BitVec.extractLsb'_append_eq_right, BitVec.and_zero]
  have hhigh : (x &&& (BitVec.allOnes m ++ 0#n)).extractLsb' n m = x.extractLsb' n m := by
    rw [BitVec.extractLsb'_and, BitVec.extractLsb'_append_eq_left, BitVec.and_allOnes]
  have hzero : 0#(m + n) = 0#m ++ 0#n := by simp
  rw [BitVec.ofNat_eq_ofNat, hzero, eq_zero_append_iff, hlow, hhigh]
  simp

/-- A word under a mask, field by field. -/
theorem and_ofFields_eq_iff {cw : CmdWord} {o a o' a' : BitVec 4} {d d' : BitVec 64} :
    cw &&& ofFields o a d = ofFields o' a' d' ↔
      opField cw &&& o = o' ∧ argField cw &&& a = a' ∧ payload cw &&& d = d' := by
  conv_lhs => rw [← ofFields_self cw, and_ofFields, ofFields_inj]

/-- The whole word is compared: it is the command's one word. -/
theorem decode_iff_and_allOnes {cw w : CmdWord} {i : Instr} (hw : encode i = w) :
    decode cw = some i ↔ cw &&& 0xFFFFFFFFFFFFFFFFFF#72 = w := by
  have hmask : 0xFFFFFFFFFFFFFFFFFF#72 = BitVec.allOnes 72 := by decide
  rw [hmask, BitVec.and_allOnes, decode_eq_some_iff, hw, eq_comm]

/-- The mask of format G: the opcode. -/
theorem and_maskG_iff {cw : CmdWord} :
    cw &&& 0x00000000000000000F#72 = 0x000000000000000002#72 ↔ opField cw = 2 := by
  have hmask : 0x00000000000000000F#72 = ofFields (BitVec.allOnes 4) 0 0 := by decide
  have hword : 0x000000000000000002#72 = ofFields 2 0 0 := by decide
  rw [hmask, hword, and_ofFields_eq_iff, BitVec.and_allOnes]
  simp

/-- The mask of format S: the opcode, the argument's upper half and the payload. -/
theorem and_maskS_iff {cw : CmdWord} :
    cw &&& 0xFFFFFFFFFFFFFFFFCF#72 = 0x000000000000000003#72 ↔
      opField cw = 3 ∧ (argField cw).extractLsb' 2 2 = 0 ∧ payload cw = 0 := by
  have hmask : 0xFFFFFFFFFFFFFFFFCF#72 = ofFields (BitVec.allOnes 4) (BitVec.allOnes 2 ++ 0#2) (BitVec.allOnes 64) := by
    decide
  have hword : 0x000000000000000003#72 = ofFields 3 0 0 := by decide
  rw [hmask, hword, and_ofFields_eq_iff, BitVec.and_allOnes, BitVec.and_allOnes]
  exact and_congr_right fun _ => and_congr_left fun _ => and_highOnes_eq_zero_iff (m := 2) (n := 2) _

/-- The mask of format R: the opcode, the argument's top bit and the payload above the panel index. -/
theorem and_maskR_iff {cw : CmdWord} :
    cw &&& 0xFFFFFFFFFFFF00008F#72 = 0x000000000000000005#72 ↔
      opField cw = 5 ∧ (argField cw).extractLsb' 3 1 = 0 ∧ (payload cw).extractLsb' 16 48 = 0 := by
  have hmask : 0xFFFFFFFFFFFF00008F#72 =
      ofFields (BitVec.allOnes 4) (BitVec.allOnes 1 ++ 0#3) (BitVec.allOnes 48 ++ 0#16) := by decide
  have hword : 0x000000000000000005#72 = ofFields 5 0 0 := by decide
  rw [hmask, hword, and_ofFields_eq_iff, BitVec.and_allOnes]
  exact and_congr_right fun _ => and_congr (and_highOnes_eq_zero_iff (m := 1) (n := 3) _)
    (and_highOnes_eq_zero_iff (m := 48) (n := 16) _)

/-- Settles O3: a command without operands has one word, and the mask of each other row is its opcode and reserved fields. -/
theorem decoderFollowsOpcodeTable : Obligations.DecoderFollowsOpcodeTable := fun cw =>
  ⟨decode_iff_and_allOnes (by decide), decode_append_iff.trans and_maskG_iff.symm,
    decode_setalign_iff.trans and_maskS_iff.symm, decode_iff_and_allOnes (by decide),
    decode_panelrow_iff.trans and_maskR_iff.symm, decode_iff_and_allOnes (by decide), decode_iff_and_allOnes (by decide),
    decode_iff_and_allOnes (by decide), decode_iff_and_allOnes (by decide)⟩

end Sys2Proof
end

section
/-! SUPPORT. Reserved opcodes and reserved bits: no command's word has one (R78, R79). -/

namespace Sys2Proof

/-- A word made of fields as a number: the payload, the argument and the opcode, each at its place (R71). -/
theorem ofFields_toNat (op a : BitVec 4) (d : BitVec 64) :
    (ofFields op a d).toNat = (d.toNat <<< 8) ||| (a.toNat <<< 4) ||| op.toNat := by
  change (d ++ a ++ op : BitVec (64 + 4 + 4)).toNat = _
  rw [BitVec.toNat_append, BitVec.toNat_append, Nat.shiftLeft_or_distrib, ← Nat.shiftLeft_add]

/-- A word made of fields as a sum. -/
theorem ofFields_toNat_eq_add (op a : BitVec 4) (d : BitVec 64) :
    (ofFields op a d).toNat = op.toNat + 16 * a.toNat + 256 * d.toNat := by
  have hlow : op.toNat + a.toNat * 2 ^ 4 < 2 ^ 8 := by omega
  rw [ofFields_toNat, Nat.or_assoc, Nat.or_comm, Nat.or_comm (a.toNat <<< 4), Machine.or_shiftLeft_eq_add op.isLt,
    Machine.or_shiftLeft_eq_add hlow]
  omega

/-- Bits extended by zeros keep their value. -/
theorem toNat_zero_append {m n : Nat} (x : BitVec n) : (0#m ++ x).toNat = x.toNat := by
  simp [BitVec.toNat_append]

/-! The operands' values in the fields of a command (R75, R76). -/

theorem argument_setalign_toNat (code : BitVec 2) : (Instr.argument (.setalign code)).toNat = code.toNat :=
  toNat_zero_append code

theorem argument_panelrow_toNat (r : Fin 8) (p : BitVec 16) : (Instr.argument (.panelrow r p)).toNat = r.val := by
  rw [Instr.argument, toNat_zero_append, BitVec.toNat_ofNat, Nat.mod_eq_of_lt r.isLt]

theorem payload_panelrow_toNat (r : Fin 8) (p : BitVec 16) : (Instr.payload (.panelrow r p)).toNat = p.toNat :=
  toNat_zero_append p

end Sys2Proof

namespace Sys2Proof.Machine

/-- The reserved opcodes and the reserved fields of R78 and R79, read from the fields of a word. -/
theorem illegalWord_ofFields (op a : BitVec 4) (d : BitVec 64) :
    IllegalWord (ofFields op a d) ↔
      op.toNat = 0 ∨ 10 ≤ op.toNat ∨ (op.toNat ∈ [1, 4, 6, 7, 8, 9] ∧ (a.toNat ≠ 0 ∨ d.toNat ≠ 0)) ∨
        (op.toNat = 3 ∧ (a.toNat / 4 ≠ 0 ∨ d.toNat ≠ 0)) ∨ (op.toNat = 5 ∧ (a.toNat / 8 ≠ 0 ∨ d.toNat / 65536 ≠ 0)) := by
  have hop := op.isLt
  have ha := a.isLt
  unfold IllegalWord
  have hn := ofFields_toNat_eq_add op a d
  generalize (ofFields op a d).toNat = n at hn
  have hopcode : n % 16 = op.toNat := by omega
  have hrest : n / 16 ≠ 0 ↔ a.toNat ≠ 0 ∨ d.toNat ≠ 0 := by omega
  have hargS : n / 64 % 4 = a.toNat / 4 := by omega
  have hargR : n / 128 % 2 = a.toNat / 8 := by omega
  have hpayload : n / 256 = d.toNat := by omega
  have hpayloadR : n / 16777216 = d.toNat / 65536 := by omega
  simp only [hopcode, hrest, hargS, hargR, hpayload, hpayloadR]

/-- The word of a command has no reserved opcode, and 0 in the reserved fields of its format. -/
theorem not_illegalWord_encode (i : Instr) : ¬ IllegalWord (encode i) := by
  rw [encode, illegalWord_ofFields]
  cases i with
  | append g => simp [Instr.opcode]
  | setalign code => simp [Instr.opcode, Instr.payload, argument_setalign_toNat, code.isLt]
  | panelrow r p => simp [Instr.opcode, argument_panelrow_toNat, payload_panelrow_toNat, p.isLt]
  | clear | getalign | render | getcursor | getpcount | getstatus => simp [Instr.opcode, Instr.argument, Instr.payload]

/-- A word with a reserved opcode or a reserved bit decodes to no command, as it is no command's word (R83). -/
theorem decode_illegalWord {cw : CmdWord} (h : IllegalWord cw) : decode cw = none := by
  rw [Option.eq_none_iff_forall_ne_some]
  rintro i hd
  rw [← encode_of_decode hd] at h
  exact not_illegalWord_encode i h

/-- Settles O18: such a word decodes to no command, and accepting it is its rejection. -/
theorem illegalWordsAreRejected : Obligations.IllegalWordsAreRejected := fun _ s' _ ha hill =>
  ⟨s'.rejected .ill, (step_accepts ha).trans (perform_illegal (decode_illegalWord hill) s'), rejected_from .ill s'⟩

end Sys2Proof.Machine
end

section
/-! SUPPORT. The words of the assembler's lines (R88, R90). -/

namespace Sys2Proof

/-- A command's word as the sum of R90: its fields shifted to their places. -/
theorem encode_eq_ofNat (i : Instr) :
    encode i = BitVec.ofNat 72 ((i.payload.toNat <<< 8) ||| (i.argument.toNat <<< 4) ||| i.opcode.toNat) := by
  rw [← ofFields_toNat, ← encode, BitVec.ofNat_toNat, BitVec.setWidth_eq]

/-- A glyph's payload as a sum: row `r` at bit `8r` (R74). -/
theorem glyphPayload_toNat (g : Glyph) :
    g.payload.toNat =
      (g.rows[7].toNat <<< 56) ||| (g.rows[6].toNat <<< 48) ||| (g.rows[5].toNat <<< 40) ||| (g.rows[4].toNat <<< 32) |||
        (g.rows[3].toNat <<< 24) ||| (g.rows[2].toNat <<< 16) ||| (g.rows[1].toNat <<< 8) ||| g.rows[0].toNat := by
  rw [Glyph.payload]
  iterate 7 rw [BitVec.toNat_append]
  simp only [Nat.shiftLeft_or_distrib, ← Nat.shiftLeft_add, Nat.reduceAdd]

end Sys2Proof

namespace Sys2Proof.Machine

/-- A line whose operands are out of range is an assembler error (R88, R89). -/
theorem assemble_eq_none {l : AsmLine} (h : ¬ l.wellFormed = true) : assemble l = none := if_neg h

/-- A SETALIGN line by its code (R90). -/
theorem assemble_setalign {a : AlignArg} (h : a.wellFormed = true) :
    assemble (.setalign a) = some [BitVec.ofNat 72 (((AlignArg.code a).toNat <<< 4) ||| 0x3)] := by
  have hwf : AsmLine.wellFormed (.setalign a) = true := h
  rw [assemble, if_pos hwf, encode_eq_ofNat, argument_setalign_toNat]
  simp [Instr.payload, Instr.opcode]

/-- A `.cw` line is its word (R88). -/
theorem assemble_cw (cw : CmdWord) : assemble (.cw cw.toNat) = some [cw] := by
  have hwf : AsmLine.wellFormed (.cw cw.toNat) = true := decide_eq_true cw.isLt
  rw [assemble, if_pos hwf, BitVec.ofNat_toNat, BitVec.setWidth_eq]

theorem wellFormed_panelrow (p r : Nat) : AsmLine.wellFormed (.panelrow p r) = true ↔ p < 65536 ∧ r < 8 := by
  simp [AsmLine.wellFormed]

/-- A PANELROW line (R90). -/
theorem assemble_panelrow {p r : Nat} (hp : p < 65536) (hr : r < 8) :
    assemble (.panelrow p r) = some [BitVec.ofNat 72 ((p <<< 8) ||| (r <<< 4) ||| 0x5)] := by
  have hpanel : (BitVec.ofNat 16 p).toNat = p := Nat.mod_eq_of_lt hp
  have hrow : (Fin.ofNat 8 r).val = r := Nat.mod_eq_of_lt hr
  rw [assemble, if_pos ((wellFormed_panelrow p r).2 ⟨hp, hr⟩), encode_eq_ofNat, argument_panelrow_toNat,
    payload_panelrow_toNat, hpanel, hrow]
  rfl

theorem wellFormed_append (w : Nat) (rows : List Nat) :
    AsmLine.wellFormed (.append w rows) = true ↔ w < 16 ∧ rows.length = 8 ∧ ∀ b ∈ rows, b < 256 := by
  simp [AsmLine.wellFormed, and_assoc]

/-- An APPEND line (R90). -/
theorem assemble_append {w r0 r1 r2 r3 r4 r5 r6 r7 : Nat} (hw : w < 16) (h0 : r0 < 256) (h1 : r1 < 256) (h2 : r2 < 256)
    (h3 : r3 < 256) (h4 : r4 < 256) (h5 : r5 < 256) (h6 : r6 < 256) (h7 : r7 < 256) :
    assemble (.append w [r0, r1, r2, r3, r4, r5, r6, r7]) =
      some [BitVec.ofNat 72 ((r7 <<< 64) ||| (r6 <<< 56) ||| (r5 <<< 48) ||| (r4 <<< 40) ||| (r3 <<< 32) |||
        (r2 <<< 24) ||| (r1 <<< 16) ||| (r0 <<< 8) ||| (w <<< 4) ||| 0x2)] := by
  have hwf : AsmLine.wellFormed (.append w [r0, r1, r2, r3, r4, r5, r6, r7]) = true := by
    simp [wellFormed_append, *]
  rw [assemble, if_pos hwf, encode_eq_ofNat, Instr.payload, glyphPayload_toNat]
  simp [Nat.shiftLeft_or_distrib, ← Nat.shiftLeft_add, Instr.argument, Instr.opcode, asmGlyph, Nat.mod_eq_of_lt, *]

/-- Settles O6: a line in range is its command's word, which is the sum of its fields; a line out of range is an error. -/
theorem assembledWordsAreTheSums : Obligations.AssembledWordsAreTheSums := by
  refine ⟨by decide, by decide, fun n hn => ?_, fun n hn => assemble_eq_none ?_, assemble_cw,
    fun n hn => assemble_eq_none ?_, fun p r => assemble_panelrow, fun p r h => assemble_eq_none ?_,
    fun w r0 r1 r2 r3 r4 r5 r6 r7 => assemble_append, fun w rows h => assemble_eq_none ?_⟩
  · have hwf : AlignArg.wellFormed (.raw n) = true := decide_eq_true hn
    have hcode : (AlignArg.code (.raw n)).toNat = n := Nat.mod_eq_of_lt hn
    rw [assemble_setalign hwf, hcode]
  · simpa [AsmLine.wellFormed, AlignArg.wellFormed] using hn
  · simpa [AsmLine.wellFormed] using hn
  · rw [wellFormed_panelrow]
    omega
  · rw [wellFormed_append]
    rintro ⟨hw, hlen, hbytes⟩
    rcases h with h | h | ⟨b, hb, h⟩
    · exact absurd hw (Nat.not_lt.2 h)
    · exact h hlen
    · exact absurd (hbytes b hb) (Nat.not_lt.2 h)

end Sys2Proof.Machine
end

section
/-! SUPPORT. The pseudo-instructions PUTC and SHOW (R89). -/

namespace Sys2Proof

/-- The alphabet, by the characters' codes: `':'` is 58, `'.'` is 46, the digits are 48 to 57. -/
theorem ofChar_isSome_iff (c : Char) :
    (GlyphChar.ofChar c).isSome = true ↔ c.toNat = 58 ∨ c.toNat = 46 ∨ (48 ≤ c.toNat ∧ c.toNat < 58) := by
  have hcolon : c = ':' ↔ c.toNat = 58 := Char.toNat_inj.symm
  have hstop : c = '.' ↔ c.toNat = 46 := Char.toNat_inj.symm
  simp only [GlyphChar.ofChar, hcolon, hstop]
  split_ifs with hc hs hd
  · simp [hc]
  · simp [hs]
  · simp [hd]
  · simp [hc, hs, hd]

/-- The alphabet of R89, written out. -/
theorem mem_alphabet_iff (c : Char) :
    c ∈ ['0', '1', '2', '3', '4', '5', '6', '7', '8', '9', ':', '.'] ↔
      c.toNat = 58 ∨ c.toNat = 46 ∨ (48 ≤ c.toNat ∧ c.toNat < 58) := by
  simp only [List.mem_cons, List.not_mem_nil, or_false, ← Char.toNat_inj, Char.reduceToNat]
  omega

end Sys2Proof

namespace Sys2Proof.Machine

/-- A character of the alphabet is the APPEND of its table entry (R89). -/
theorem putChar_eq_some {c : Char} {g : GlyphChar} (h : GlyphChar.ofChar c = some g) :
    putChar c = some (.append (glyphRom g)) := by
  rw [putChar, h, Option.map_some]

/-- A text of the alphabet is an APPEND for each character in order, by induction on the text. -/
theorem mapM_putChar {text : List Char} {cs : List GlyphChar} (h : text.map GlyphChar.ofChar = cs.map some) :
    text.mapM putChar = some (cs.map fun c => .append (glyphRom c)) := by
  induction text generalizing cs with
  | nil =>
    obtain rfl : cs = [] := List.map_eq_nil_iff.1 h.symm
    rfl
  | cons c text ih =>
    cases cs with
    | nil => cases h
    | cons g cs =>
      obtain ⟨hc, htext⟩ := List.cons.inj h
      simp [putChar_eq_some hc, ih htext]

/-- A text is in range when each of its characters is in the alphabet (R89). -/
theorem wellFormed_showText (text : List Char) :
    AsmLine.wellFormed (.showText text) = true ↔ ∀ c ∈ text, (GlyphChar.ofChar c).isSome = true := List.all_eq_true

/-- Each character of a text of the alphabet is in the alphabet. -/
theorem isSome_of_map_ofChar {text : List Char} {cs : List GlyphChar} (h : text.map GlyphChar.ofChar = cs.map some) :
    ∀ c ∈ text, (GlyphChar.ofChar c).isSome = true := by
  intro c hc
  obtain ⟨g, _, hg⟩ := List.mem_map.1 (h ▸ List.mem_map_of_mem hc)
  rw [← hg, Option.isSome_some]

theorem assemble_putc {c : Char} {g : GlyphChar} (h : GlyphChar.ofChar c = some g) :
    assemble (.putc c) = some [encode (.append (glyphRom g))] := by
  have hwf : AsmLine.wellFormed (.putc c) = true := Option.isSome_of_eq_some h
  rw [assemble, if_pos hwf, putChar_eq_some h, Option.map_some]

theorem assemble_showText {text : List Char} {cs : List GlyphChar} (h : text.map GlyphChar.ofChar = cs.map some) :
    assemble (.showText text) =
      some (encode .clear :: cs.map (fun c => encode (.append (glyphRom c))) ++ [encode .render]) := by
  rw [assemble, if_pos ((wellFormed_showText text).2 (isSome_of_map_ofChar h)), showChars, mapM_putChar h]
  simp

/-- Settles O8: both lines are the words of their commands when the characters are in the alphabet, and errors otherwise. -/
theorem pseudoInstructionsExpand : Obligations.PseudoInstructionsExpand := by
  refine ⟨fun c => (ofChar_isSome_iff c).trans (mem_alphabet_iff c).symm, fun c g => assemble_putc,
    fun text cs => assemble_showText, fun c hc => assemble_eq_none ?_, fun text ⟨c, hmem, hc⟩ => assemble_eq_none ?_⟩
  · simp [AsmLine.wellFormed, hc]
  · intro hwf
    have hsome := (wellFormed_showText text).1 hwf c hmem
    rw [hc] at hsome
    cases hsome

end Sys2Proof.Machine
end

section
/-! SUPPORT. The form of every response (R86, R87). -/

namespace Sys2Proof.Machine

/-- From `s` to `t` no response is sent, or one, whose DATA is 0 when REJ is 1. -/
def RespondsInForm (s t : State) : Prop :=
  t.responses = s.responses ∨ ∃ b d, (b = true → d = 0) ∧ t.responses = s.responses ++ [Rsp.make b d]

/-- One response without REJ. -/
theorem respondsInForm_data {s t : State} (d : BitVec 24) (h : t.responses = s.responses ++ [Rsp.make false d]) :
    RespondsInForm s t := .inr ⟨false, d, nofun, h⟩

/-- One response with REJ. -/
theorem respondsInForm_rejected {s t : State} (h : t.responses = s.responses ++ [Rsp.make true 0]) :
    RespondsInForm s t := .inr ⟨true, 0, fun _ => rfl, h⟩

theorem exec_respondsInForm {i : Instr} {s t : State} (h : exec i s = .next t) : RespondsInForm s t := by
  rcases exec_cases h with ⟨_, _, rfl⟩ | ⟨d, rfl⟩ | ⟨_, rfl⟩ | ⟨_, _, _, _, rfl⟩ | ⟨_, _, rfl⟩ | ⟨_, _, rfl⟩ | ⟨_, _, rfl⟩
  · exact respondsInForm_rejected rfl
  · exact respondsInForm_data d rfl
  · exact respondsInForm_data 0 rfl
  · exact respondsInForm_data 0 rfl
  · exact respondsInForm_data 0 rfl
  · exact respondsInForm_data 0 rfl
  · exact .inl rfl

theorem perform_respondsInForm {cw : CmdWord} {s t : State} (h : perform cw s = .next t) : RespondsInForm s t := by
  cases hd : decode cw with
  | none =>
    rw [perform_illegal hd] at h
    cases h
    exact respondsInForm_rejected rfl
  | some i => exact exec_respondsInForm (perform_decoded hd s ▸ h)

/-- A move responds when it performs a word or ends a RENDER. -/
theorem move_respondsInForm {s t : State} (m : Move s t) : RespondsInForm s t := by
  cases m with
  | accept ha he =>
    rw [RespondsInForm, ← ha.responses_eq]
    exact perform_respondsInForm he
  | renderDone => exact respondsInForm_data 0 rfl
  | renderAborted => exact respondsInForm_rejected rfl
  | wait | offer | sendInit | sendQuery | resetFailed | latch | refuseCount | sendRow | reset => exact .inl rfl

/-- A response with REJ 1 and DATA 0 is `0x80000000` (R87). -/
theorem make_eq_of_rej {b : Bool} {d : BitVec 24} (hd : b = true → d = 0) (hrej : (Rsp.make b d).getLsbD 31 = true) :
    Rsp.make b d = 0x80000000#32 := by
  obtain rfl : b = true := (Rsp.rej_make b d).symm.trans hrej
  rw [hd rfl, Rsp.make_true_zero]

/-- Settles O21: a step is a move, and what a move sends is a response of R86's form. -/
theorem responsesHaveTheFormat : Obligations.ResponsesHaveTheFormat := by
  intro s t h
  rcases move_respondsInForm (move_of_step h) with hsame | ⟨b, d, hd, hsent⟩
  · exact .inl hsame
  · exact .inr ⟨_, hsent, Rsp.reserved_make b d, make_eq_of_rej hd⟩

end Sys2Proof.Machine
end

section
/-! SUPPORT. The glyph table (R105, R106). -/

namespace Sys2Proof.Machine

@[simp] theorem glyphRom_width (c : GlyphChar) : (glyphRom c).width = romWidth c := rfl
@[simp] theorem glyphRom_row (c : GlyphChar) (r : Nat) (hr : r < 8) : (glyphRom c).rows[r] = romRow c ⟨r, hr⟩ :=
  Vector.getElem_ofFn hr

/-- R105's widths; a character's own branch of the table answers. -/
@[simp] theorem romWidth_colon : romWidth .colon = 2 := if_pos rfl
@[simp] theorem romWidth_fullStop : romWidth .fullStop = 1 := rfl
@[simp] theorem romWidth_digit_one : romWidth (.digit 1) = 5 := rfl
@[simp] theorem romWidth_digit_two : romWidth (.digit 2) = 5 := rfl

/-- R105's rows. -/
@[simp] theorem romRow_colon_two : romRow .colon 2 = 0b00000001 := if_pos ⟨rfl, rfl⟩
@[simp] theorem romRow_fullStop_six : romRow .fullStop 6 = 0b00000001 := rfl

/-- A free width is a choice below 8 and 1 more, which the 4-bit field holds unchanged. -/
theorem freeWidth_toNat (n : Fin 8) : (BitVec.ofNat 4 (n.val + 1)).toNat = n.val + 1 :=
  Nat.mod_eq_of_lt (by omega)

/-- R101's range holds in each branch of the table: the given widths are in it, and a free one is by its choice. -/
theorem romWidth_range (c : GlyphChar) : 1 ≤ (romWidth c).toNat ∧ (romWidth c).toNat ≤ 8 := by
  unfold romWidth
  split_ifs
  · decide
  · decide
  · decide
  · rw [freeWidth_toNat]
    omega

theorem glyphRom_valid (c : GlyphChar) : (glyphRom c).valid = true := by
  obtain ⟨hpos, hle⟩ := romWidth_range c
  simp [Glyph.valid, hpos, hle]

/-- Settles O7: no branch of the table leaves the valid widths, and R105's characters take the branches that give its values. -/
theorem glyphTableIsValid : Obligations.GlyphTableIsValid :=
  ⟨glyphRom_valid, romWidth_colon, (glyphRom_row .colon 2 _).trans romRow_colon_two,
    romWidth_fullStop, (glyphRom_row .fullStop 6 _).trans romRow_fullStop_six, romWidth_digit_one, romWidth_digit_two⟩

end Sys2Proof.Machine
end

section
/-! SUPPORT. The meaning of APPEND by width and capacity, and what a merge does to a row (R122 to R128). -/

namespace Sys2Proof.Machine

/-- R101's range as arithmetic. -/
theorem glyph_valid_iff (g : Glyph) : g.valid = true ↔ 1 ≤ g.width.toNat ∧ g.width.toNat ≤ 8 := by
  simp [Glyph.valid]

theorem exec_append_badWidth {g : Glyph} (hw : g.width.toNat = 0 ∨ 8 < g.width.toNat) (s : State) :
    exec (.append g) s = .next (s.rejected .badw) := if_pos hw

section ValidWidth
variable {g : Glyph} {s : State} (hpos : 1 ≤ g.width.toNat) (hle : g.width.toNat ≤ 8)
include hpos hle

theorem exec_append_overflow (hover : s.totalWidth < s.cursor + g.width.toNat) :
    exec (.append g) s = .next (s.rejected .ovf) :=
  (if_neg (by omega)).trans (if_pos hover)

theorem exec_append_fits (hfit : s.cursor + g.width.toNat ≤ s.totalWidth) :
    exec (.append g) s = .next ((s.merge g).sendRsp false 0) :=
  (if_neg (by omega)).trans (if_neg (Nat.not_lt.2 hfit))

end ValidWidth

/-- A glyph of bad width, or that does not fit, is rejected. -/
theorem exec_append_rejected {g : Glyph} {s : State}
    (h : ¬ (1 ≤ g.width.toNat ∧ g.width.toNat ≤ 8 ∧ s.cursor + g.width.toNat ≤ s.totalWidth)) :
    ∃ f, exec (.append g) s = .next (s.rejected f) := by
  rcases execAppend_cases g s with ⟨_, e⟩ | ⟨_, _, e⟩ | ⟨⟨hpos, hle⟩, hfit, _⟩
  · exact ⟨_, e⟩
  · exact ⟨_, e⟩
  · exact absurd ⟨hpos, hle, hfit⟩ h

/-- A masked glyph row has the row's bits below the width, and no other (R102). -/
theorem grow_testBit (g : Glyph) (r : Fin 8) (i : Nat) :
    (grow g r).testBit i = (decide (i < g.width.toNat) && g.rows[r].getLsbD i) := by
  rw [grow_eq_mod, Nat.testBit_mod_two_pow, BitVec.testBit_toNat]

/-- A merge puts the glyph's bits at `CURSOR` and keeps every other bit (R124, R52). -/
theorem merge_testBit (g : Glyph) (s : State) (r : Fin 8) (k : Nat) :
    (s.merge g).rows[r].testBit k =
      (s.rows[r].testBit k ||
        (decide (s.cursor ≤ k ∧ k < s.cursor + g.width.toNat) && g.rows[r].getLsbD (k - s.cursor))) := by
  rw [merge_row, Nat.testBit_or, Nat.testBit_shiftLeft, grow_testBit]
  by_cases hk : s.cursor ≤ k
  · have hbelow : k - s.cursor < g.width.toNat ↔ k < s.cursor + g.width.toNat := by omega
    simp [hk, hbelow]
  · simp [hk]

section BelowCursor
variable {s : State} {r : Fin 8} (h : s.rows[r] < 2 ^ s.cursor) (g : Glyph)
include h

/-- Where no bit lies at or above `CURSOR` the merge is an addition (R128). -/
theorem merge_row_eq_add : (s.merge g).rows[r] = s.rows[r] + grow g r * 2 ^ s.cursor := by
  rw [merge_row, or_shiftLeft_eq_add h]

/-- After a merge no bit lies at or above the new `CURSOR` (R127). -/
theorem merge_row_lt : (s.merge g).rows[r] < 2 ^ (s.merge g).cursor := by
  rw [merge_row_eq_add h, State.merge_cursor, Nat.pow_add, Nat.mul_comm (2 ^ s.cursor)]
  calc s.rows[r] + grow g r * 2 ^ s.cursor
      < 2 ^ s.cursor + grow g r * 2 ^ s.cursor := Nat.add_lt_add_right h _
    _ = (grow g r + 1) * 2 ^ s.cursor := by rw [Nat.add_mul, Nat.one_mul, Nat.add_comm]
    _ ≤ 2 ^ g.width.toNat * 2 ^ s.cursor := Nat.mul_le_mul_right _ (grow_bound g r)

end BelowCursor

/-- Settles O24: the merge, bit by bit. -/
theorem appendMergesTheGlyph : Obligations.AppendMergesTheGlyph := fun s g hpos hle hfit =>
  ⟨_, exec_append_fits hpos hle hfit, merge_testBit g s, rfl, rfl, rfl, rfl, ⟨rfl, rfl, rfl, rfl⟩,
    by rw [State.sendRsp_responses, Rsp.make_false_zero, State.merge_responses]⟩

/-- Settles O25: the width is checked before the capacity. -/
theorem appendOfBadWidthIsRejected : Obligations.AppendOfBadWidthIsRejected := fun s _ hw =>
  ⟨_, exec_append_badWidth hw s, rejected_from .badw s⟩

/-- Settles O26: a rejection leaves the buffer. -/
theorem appendPastTheEndIsRejected : Obligations.AppendPastTheEndIsRejected := fun s _ hpos hle hover =>
  ⟨_, exec_append_overflow hpos hle hover, rejected_from .ovf s⟩

/-- Settles O28: with `W = 0` a glyph of width 1 or more does not fit. -/
theorem noPanelsRejectsEveryAppend : Obligations.NoPanelsRejectsEveryAppend := by
  intro s g hp
  by_cases hv : g.valid = true
  · obtain ⟨hpos, hle⟩ := (glyph_valid_iff g).1 hv
    have hover : s.totalWidth < s.cursor + g.width.toNat := by
      rw [State.totalWidth, hp]
      omega
    exact ⟨_, exec_append_overflow hpos hle hover, fun _ => rejected_from .ovf s, fun hv' => absurd hv (by simp [hv'])⟩
  · have hw : g.width.toNat = 0 ∨ 8 < g.width.toNat := by
      rw [glyph_valid_iff] at hv
      omega
    exact ⟨_, exec_append_badWidth hw s, fun hv' => absurd hv' hv, fun _ => rejected_from .badw s⟩

/-- Settles O29: the glyph's bits start at `CURSOR`, above every bit set before. -/
theorem appendCorruptsNoEarlierGlyph : Obligations.AppendCorruptsNoEarlierGlyph := by
  intro s g hrows hpos hle hfit
  refine ⟨_, exec_append_fits hpos hle hfit, fun r k hk => ?_, fun r => ?_⟩
  · have hbelow : ¬ s.cursor ≤ k := Nat.not_le.2 hk
    rw [State.sendRsp_rows, merge_testBit]
    simp [hbelow]
  · rw [State.sendRsp_rows, merge_row_eq_add (hrows r), grow_eq_mod]

end Sys2Proof.Machine
end

section
/-! SUPPORT. What CLEAR, APPENDs and other commands leave in the buffer, one after the other (R121, R128 to R131). -/

namespace Sys2Proof

/-- A word decodes to a command exactly when it is the word written out for it. -/
theorem decode_iff_eq {cw w : CmdWord} {i : Instr} (hw : encode i = w) : decode cw = some i ↔ cw = w := by
  rw [decode_eq_some_iff, hw, eq_comm]

/-- The commands that write `ROWS` and `CURSOR` (R120). -/
def Instr.Composes (i : Instr) : Prop := i = .clear ∨ ∃ g, i = .append g

end Sys2Proof

namespace Sys2Proof.Machine

theorem exec_clear (s : State) : exec .clear s = .next (s.cleared.sendRsp false 0) := rfl

/-- Settles O23: CLEAR has one word, and its effect is the cleared buffer and a response. -/
theorem clearEmptiesTheBuffer : Obligations.ClearEmptiesTheBuffer :=
  ⟨fun _ => decode_iff_eq (by decide), fun s => ⟨_, exec_clear s, cleared_row s, rfl, rfl, rfl, rfl, ⟨rfl, rfl, rfl, rfl⟩,
    by rw [State.sendRsp_responses, Rsp.make_false_zero, State.cleared_responses]⟩⟩

/-! A list of APPENDs. -/

/-- From a buffer with no bit at or above `CURSOR`, APPENDs add the widths and the shifted rows of the accepted glyphs. -/
theorem execAll_appends (gs : List Glyph) : ∀ s : State, (∀ r : Fin 8, s.rows[r] < 2 ^ s.cursor) →
    ∃ t, execAll (gs.map .append) s = .next t ∧
      t.cursor = s.cursor + widthSum (acceptedFrom s.totalWidth s.cursor gs) ∧
      ∀ r : Fin 8, t.rows[r] = s.rows[r] + rowSum r s.cursor (acceptedFrom s.totalWidth s.cursor gs) := by
  induction gs with
  | nil => exact fun s _ => ⟨s, rfl, rfl, fun _ => rfl⟩
  | cons g gs ih =>
    intro s hrows
    by_cases hacc : 1 ≤ g.width.toNat ∧ g.width.toNat ≤ 8 ∧ s.cursor + g.width.toNat ≤ s.totalWidth
    · obtain ⟨hpos, hle, hfit⟩ := hacc
      obtain ⟨t, he, hcursor, hrow⟩ := ih ((s.merge g).sendRsp false 0) fun r => merge_row_lt (hrows r) g
      rw [acceptedFrom, if_pos ⟨hpos, hle, hfit⟩, widthSum]
      refine ⟨t, (execAll_next (exec_append_fits hpos hle hfit) _).trans he, ?_, fun r => ?_⟩
      · exact hcursor.trans (Nat.add_assoc _ _ _)
      · rw [hrow r, State.sendRsp_rows, merge_row_eq_add (hrows r), rowSum, ← Nat.add_assoc]
        rfl
    · obtain ⟨f, e⟩ := exec_append_rejected hacc
      obtain ⟨t, he, hsums⟩ := ih (s.rejected f) hrows
      rw [acceptedFrom, if_neg hacc]
      exact ⟨t, (execAll_next e _).trans he, hsums⟩

/-- Settles O30: CLEAR leaves the empty buffer, and the APPENDs after it add the accepted glyphs to it. -/
theorem rowsAreTheSumOfTheGlyphs : Obligations.RowsAreTheSumOfTheGlyphs := by
  intro s gs
  obtain ⟨t, he, hcursor, hrow⟩ := execAll_appends gs (s.cleared.sendRsp false 0) fun r => by simp
  refine ⟨t, (execAll_next (exec_clear s) _).trans he, hcursor.trans (Nat.zero_add _), fun r => ?_⟩
  rw [hrow r, State.sendRsp_rows, cleared_row, Nat.zero_add]
  rfl

/-! A full buffer. -/

/-- No command changes the panel count (R25). -/
theorem exec_pcount {i : Instr} {s t : State} (h : exec i s = .next t) : t.pcount = s.pcount := by
  rcases exec_cases h with ⟨_, _, rfl⟩ | ⟨_, rfl⟩ | ⟨_, rfl⟩ | ⟨_, _, _, _, rfl⟩ | ⟨_, _, rfl⟩ | ⟨_, _, rfl⟩ | ⟨_, _, rfl⟩ <;>
    rfl

/-- Only CLEAR makes room in a full buffer. -/
theorem exec_keeps_full {i : Instr} {s t : State} (hi : i ≠ .clear) (hfull : s.cursor = s.totalWidth)
    (h : exec i s = .next t) : t.cursor = t.totalWidth := by
  have hcap : t.totalWidth = s.totalWidth := congrArg (8 * ·) (exec_pcount h)
  rw [hcap, ← hfull]
  rcases exec_rows_cursor h with ⟨_, hcursor⟩ | hclear | ⟨g, _, hv, hfit⟩
  · exact hcursor
  · exact absurd hclear hi
  · have hpos := ((glyph_valid_iff g).1 hv).1
    omega

theorem execAll_keeps_full (is : List Instr) (hclear : .clear ∉ is) : ∀ s : State, s.cursor = s.totalWidth →
    ∃ u, execAll is s = .next u ∧ u.cursor = u.totalWidth := by
  induction is with
  | nil => exact fun s hfull => ⟨s, rfl, hfull⟩
  | cons i is ih =>
    intro s hfull
    obtain ⟨hne, hrest⟩ := not_or.1 (List.mem_cons.not.1 hclear)
    obtain ⟨t, e⟩ := exec_total i s
    obtain ⟨u, he, hu⟩ := ih hrest t (exec_keeps_full (Ne.symm hne) hfull e)
    exact ⟨u, (execAll_next e is).trans he, hu⟩

/-- Settles O27: a full buffer stays full until CLEAR, and no glyph of width 1 or more fits in it. -/
theorem exactFitFillsTheBuffer : Obligations.ExactFitFillsTheBuffer := by
  intro s g hpos hle hexact
  refine ⟨_, exec_append_fits hpos hle hexact.le, hexact, ?_, fun is hclear => ?_⟩
  · rw [State.sendRsp_responses, Rsp.make_false_zero, State.merge_responses]
  · obtain ⟨u, he, hfull⟩ := execAll_keeps_full is hclear ((s.merge g).sendRsp false 0) hexact
    exact ⟨u, he, fun g' hpos' hle' => ⟨_, exec_append_overflow hpos' hle' (by omega), rejected_from .ovf u⟩⟩

/-! What composition reads. -/

/-- Two states alike in all that composition reads: `ROWS`, `CURSOR` and `W` (R130). -/
structure State.SameComposition (s t : State) : Prop where
  rows : t.rows = s.rows
  cursor : t.cursor = s.cursor
  pcount : t.pcount = s.pcount

theorem State.SameComposition.trans {s t u : State} (h : s.SameComposition t) (k : t.SameComposition u) :
    s.SameComposition u := ⟨k.rows.trans h.rows, k.cursor.trans h.cursor, k.pcount.trans h.pcount⟩

theorem State.SameComposition.symm {s t : State} (h : s.SameComposition t) : t.SameComposition s :=
  ⟨h.rows.symm, h.cursor.symm, h.pcount.symm⟩

theorem exec_keeps_composition {i : Instr} {s t : State} (hi : ¬ i.Composes) (h : exec i s = .next t) :
    s.SameComposition t := by
  rcases exec_rows_cursor h with ⟨hrows, hcursor⟩ | rfl | ⟨g, rfl, _, _⟩
  · exact ⟨hrows, hcursor, exec_pcount h⟩
  · exact absurd (.inl rfl) hi
  · exact absurd (.inr ⟨g, rfl⟩) hi

section Congruence
variable {s s' t t' : State} (h : s.SameComposition s')
include h

/-- APPEND takes the same branch in both states, and the same merge. -/
theorem exec_append_sameComposition {g : Glyph} (e : exec (.append g) s = .next t)
    (e' : exec (.append g) s' = .next t') : t.SameComposition t' := by
  have hcap : s'.totalWidth = s.totalWidth := congrArg (8 * ·) h.pcount
  rcases execAppend_cases g s with ⟨hw, es⟩ | ⟨⟨hpos, hle⟩, hover, es⟩ | ⟨⟨hpos, hle⟩, hfit, es⟩ <;>
    cases es.symm.trans e
  · cases (exec_append_badWidth hw s').symm.trans e'
    exact ⟨h.rows, h.cursor, h.pcount⟩
  · cases (exec_append_overflow hpos hle (by rwa [hcap, h.cursor])).symm.trans e'
    exact ⟨h.rows, h.cursor, h.pcount⟩
  · cases (exec_append_fits hpos hle (by rwa [hcap, h.cursor])).symm.trans e'
    exact ⟨by simp [h.rows, h.cursor], by simp [h.cursor], h.pcount⟩

/-- Every command keeps two states alike. -/
theorem exec_sameComposition {i : Instr} (e : exec i s = .next t) (e' : exec i s' = .next t') :
    t.SameComposition t' := by
  by_cases hi : i.Composes
  · rcases hi with rfl | ⟨g, rfl⟩
    · cases (exec_clear s).symm.trans e
      cases (exec_clear s').symm.trans e'
      exact ⟨rfl, rfl, h.pcount⟩
    · exact exec_append_sameComposition h e e'
  · exact ((exec_keeps_composition hi e).symm.trans h).trans (exec_keeps_composition hi e')

end Congruence

/-- Leaving commands that do not compose out of a list gives the same buffer. -/
theorem execAll_filter_sameComposition {p : Instr → Bool} (hp : ∀ i, p i = false → ¬ i.Composes) (is : List Instr) :
    ∀ s s' : State, s.SameComposition s' →
      ∃ t u, execAll is s = .next t ∧ execAll (is.filter p) s' = .next u ∧ t.SameComposition u := by
  induction is with
  | nil => exact fun s s' h => ⟨s, s', rfl, rfl, h⟩
  | cons i is ih =>
    intro s s' h
    obtain ⟨t, e⟩ := exec_total i s
    rw [execAll_next e]
    cases hi : p i with
    | true =>
      obtain ⟨t', e'⟩ := exec_total i s'
      rw [List.filter_cons_of_pos hi, execAll_next e']
      exact ih t t' (exec_sameComposition h e e')
    | false =>
      rw [List.filter_cons_of_neg (by simp [hi])]
      exact ih t s' ((exec_keeps_composition (hp i hi) e).symm.trans h)

/-- In terms of the buffer: the same list with and without the commands that do not compose. -/
theorem execAll_filter_rows_cursor {p : Instr → Bool} (hp : ∀ i, p i = false → ¬ i.Composes) (is : List Instr)
    (s : State) :
    ∃ t u, execAll is s = .next t ∧ execAll (is.filter p) s = .next u ∧ t.rows = u.rows ∧ t.cursor = u.cursor := by
  obtain ⟨t, u, ht, hu, h⟩ := execAll_filter_sameComposition hp is s s ⟨rfl, rfl, rfl⟩
  exact ⟨t, u, ht, hu, h.rows.symm, h.cursor.symm⟩

/-- Settles O31: a SETALIGN does not compose, and composition reads no mode. -/
theorem compositionIgnoresAlignment : Obligations.CompositionIgnoresAlignment := by
  refine fun is s => execAll_filter_rows_cursor (fun i hi => ?_) is s
  cases i with
  | setalign code => simp [Instr.Composes]
  | clear | append | getalign | panelrow | render | getcursor | getpcount | getstatus => cases hi

end Sys2Proof.Machine
end

section
/-! SUPPORT. What every step keeps, every run keeps. -/

namespace Sys2Proof.Machine

theorem runSteps_keeps {P : State → Prop} (hstep : ∀ s t, P s → step s = .next t → P t) (k : Nat) :
    ∀ {s t : State}, P s → runSteps k s = .next t → P t := by
  induction k with
  | zero =>
    intro s t hs h
    cases h
    exact hs
  | succ k ih =>
    intro s t hs h
    rw [runSteps] at h
    split at h
    · rename_i u hu
      exact ih (hstep s u hs hu) h
    · cases h
    · cases h

/-- Settles O58: the reset state has the invariant and every step keeps it, so every reachable state has it. -/
theorem cursorAndRowsStayInBounds : Obligations.CursorAndRowsStayInBounds := by
  intro turns k t h
  have hinv : t.Inv := runSteps_keeps everyStepKeepsTheInvariant k (resetHasTheInvariant turns) h
  exact ⟨hinv.cursor_le, hinv.rows_lt⟩

end Sys2Proof.Machine
end

section
/-! SUPPORT. SETALIGN and GETALIGN, and where alignment places the run (R141 to R147). -/

namespace Sys2Proof.Machine

/-! The mode. -/

theorem exec_getalign (s : State) : exec .getalign s = .next (s.sendRsp false (zext24 s.align.code.toNat)) := rfl

/-- Every mode's code fits the DATA field, so GETALIGN responds it as it is (R142, R13). -/
theorem getalign_response (a : Align) : Rsp.make false (zext24 a.code.toNat) = a.code.setWidth 32 := by
  cases a <;> decide

/-- Settles O32: each code has one word; SETALIGN writes the mode that has the code, and code 3, which no mode has, is a
rejection. -/
theorem setalignWritesTheMode : Obligations.SetalignWritesTheMode := by
  refine ⟨fun _ => decode_iff_eq (by decide), fun _ => decode_iff_eq (by decide), fun _ => decode_iff_eq (by decide),
    fun _ => decode_iff_eq (by decide), fun s code => ?_⟩
  rcases execSetalign_cases code s with ⟨hthree, e⟩ | ⟨hne, a, hcode, e⟩
  · exact ⟨_, e, fun hne => absurd hthree hne, fun _ => rejected_from .ill s⟩
  · refine ⟨_, e, fun _ => ⟨hcode, rfl, rfl, rfl, rfl, ⟨rfl, rfl, rfl, rfl⟩, ?_⟩, fun hthree => absurd hthree hne⟩
    rw [State.sendRsp_responses, Rsp.make_false_zero]

/-- Settles O33: GETALIGN sends one response, the code of the mode held. -/
theorem getalignRespondsTheCode : Obligations.GetalignRespondsTheCode := by
  refine ⟨fun _ => decode_iff_eq (by decide), fun s =>
    ⟨_, exec_getalign s, sameBuffer_sendRsp _ _ s, samePorts_sendRsp _ _ s, rfl, ?_⟩⟩
  rw [State.sendRsp_responses, getalign_response]
  exact ⟨fun ha => by rw [ha]; rfl, fun ha => by rw [ha]; rfl, fun ha => by rw [ha]; rfl⟩

/-! The shift (R144). -/

theorem shift_of_left {s : State} (ha : s.align = .left) : s.shift = s.leftover := by simp [State.shift, ha]

theorem shift_of_center {s : State} (ha : s.align = .center) : s.shift = s.leftover / 2 := by simp [State.shift, ha]

theorem shift_of_right {s : State} (ha : s.align = .right) : s.shift = 0 := by simp [State.shift, ha]

/-- A full buffer is not shifted, whatever the mode (R147). -/
theorem shift_of_full {s : State} (hfull : s.cursor = s.totalWidth) : s.shift = 0 := by
  have hle := shift_le_leftover s
  rw [leftover_of_le hfull.le] at hle
  omega

/-- CENTER halves a leftover of one column to no shift (R147). -/
theorem shift_of_center_of_one_left {s : State} (ha : s.align = .center) (hone : s.cursor + 1 = s.totalWidth) :
    s.shift = 0 := by
  rw [shift_of_center ha, leftover_of_le (by omega)]
  omega

/-- The shifted run ends at or below `W` (R146). -/
theorem cursor_add_shift_le {s : State} (h : s.cursor ≤ s.totalWidth) : s.cursor + s.shift ≤ s.totalWidth := by
  have hle := shift_le_leftover s
  rw [leftover_of_le h] at hle
  omega

/-! The aligned row. -/

/-- With no shift the aligned row is the row (R144). -/
theorem aligned_of_shift_zero {s : State} (h : s.shift = 0) (r : Fin 8) : s.aligned r = s.rows[r] := by
  rw [State.aligned, h, Nat.shiftLeft_zero]

/-- The column `k` of a row is the aligned column `shift + k` (R144). -/
theorem alignedColumn_shift_add (s : State) (r : Fin 8) (k : Nat) :
    s.alignedColumn r (s.shift + k) = s.rows[r].testBit k := by
  simp [State.alignedColumn, State.aligned, Nat.testBit_shiftLeft]

theorem alignedColumn_below_shift {s : State} {k : Nat} (hk : k < s.shift) (r : Fin 8) : s.alignedColumn r k = false := by
  simp [State.alignedColumn, State.aligned, Nat.testBit_shiftLeft, hk]

section BelowCursor
variable {s : State} {r : Fin 8} (h : s.rows[r] < 2 ^ s.cursor)
include h

/-- A row with no bit at or above `CURSOR` has none at or above `CURSOR + shift` once aligned (R146). -/
theorem aligned_lt : s.aligned r < 2 ^ (s.cursor + s.shift) := Nat.shiftLeft_lt h

theorem alignedColumn_above_run {k : Nat} (hk : s.shift + s.cursor ≤ k) : s.alignedColumn r k = false :=
  Nat.testBit_lt_two_pow ((aligned_lt h).trans_le (Nat.pow_le_pow_right (by decide) (by omega)))

/-- An empty run is clear, wherever it is placed (R147). -/
theorem aligned_of_cursor_zero (hzero : s.cursor = 0) : s.aligned r = 0 := by
  have hrow : s.rows[r] = 0 := by simpa [hzero] using h
  rw [State.aligned, hrow, Nat.zero_shiftLeft]

end BelowCursor

/-- Settles O34: `lo` is the shift of each mode, and a shift moves every column of the run by it. -/
theorem alignedRunIsPlacedByMode : Obligations.AlignedRunIsPlacedByMode := by
  intro s lo hcursor hrows hmode
  have hleft := leftover_of_le hcursor
  have hlo : s.shift = lo := by
    rcases hmode with ⟨ha, rfl⟩ | ⟨ha, rfl⟩ | ⟨ha, rfl⟩
    · exact shift_of_right ha
    · rw [shift_of_left ha, hleft]
    · rw [shift_of_center ha, hleft]
  subst hlo
  refine ⟨alignedColumn_shift_add s, fun r k hk => ?_, fun ha => ?_, fun ha => ?_⟩
  · rcases hk with hbelow | habove
    · exact alignedColumn_below_shift hbelow r
    · exact alignedColumn_above_run (hrows r) habove
  · rw [shift_of_left ha, hleft]
    omega
  · rw [shift_of_center ha, hleft]
    omega

/-- Settles O35: the shifted run ends at or below `W`. -/
theorem alignedRowFitsTheChain : Obligations.AlignedRowFitsTheChain := fun _ r hcursor hrows =>
  (aligned_lt (hrows r)).trans_le (Nat.pow_le_pow_right (by decide) (cursor_add_shift_le hcursor))

/-- Settles O36: with a leftover of 0 no mode shifts, with one of 1 CENTER does not, and an empty run is clear in every place. -/
theorem equalModes : Obligations.EqualModes := by
  intro s r a b hrows
  refine ⟨fun hfull => ?_, fun hone => ?_, fun hzero => ?_⟩
  · have hrow (m : Align) : { s with align := m }.aligned r = s.rows[r] :=
      aligned_of_shift_zero (shift_of_full (s := { s with align := m }) hfull) r
    rw [hrow a, hrow b]
  · have hcenter : { s with align := .center }.shift = 0 :=
      shift_of_center_of_one_left (s := { s with align := .center }) rfl hone
    rw [aligned_of_shift_zero hcenter, aligned_of_shift_zero (shift_of_right rfl)]
  · exact aligned_of_cursor_zero (s := { s with align := a }) (hrows r) hzero

end Sys2Proof.Machine
end

section
/-! SUPPORT. PANELROW: the panel bytes, their responses, and the row that they cover (R161 to R168). -/

namespace Sys2Proof.Machine

/-! The two outcomes of PANELROW (R162). -/

theorem exec_panelrow_outOfRange {s : State} {p : BitVec 16} (h : s.pcount ≤ p.toNat) (r : Fin 8) :
    exec (.panelrow r p) s = .next (s.rejected .range) := if_pos h

theorem exec_panelrow_inRange {s : State} {p : BitVec 16} (h : p.toNat < s.pcount) (r : Fin 8) :
    exec (.panelrow r p) s = .next (s.sendRsp false (zext24 (s.pbyte p.toNat r).toNat)) := if_neg (Nat.not_le.2 h)

/-- Settles O38: the range is checked first. -/
theorem panelrowOutOfRangeIsRejected : Obligations.PanelrowOutOfRangeIsRejected := fun s r _ h =>
  ⟨_, exec_panelrow_outOfRange h r, rejected_from .range s⟩

/-! The response. -/

/-- A response that is no rejection is its `DATA`, extended by zeros (R86). -/
theorem rsp_make_false (d : BitVec 24) : Rsp.make false d = d.setWidth 32 := by
  apply BitVec.eq_of_getLsbD_eq
  intro k hk
  rw [Rsp.make_bit, BitVec.getLsbD_setWidth]
  by_cases h : k < 24
  · simp [h, hk]
  · simp [h, BitVec.getLsbD_of_ge d k (Nat.not_lt.1 h)]

/-- A byte fits `DATA`, so a command responds it as it is (R162, R13). -/
theorem byte_response (b : Byte) : Rsp.make false (zext24 b.toNat) = b.setWidth 32 := by
  have hfits : b.toNat < 2 ^ 24 := by omega
  have hdata : zext24 b.toNat = b.setWidth 24 := (if_pos hfits).trans (BitVec.ofNat_toNat 24 b)
  rw [rsp_make_false, hdata, BitVec.setWidth_setWidth (by decide)]

/-- The bits of a panel byte: eight aligned columns, and nothing above them (R161). -/
theorem pbyte_getLsbD (s : State) (p : Nat) (r : Fin 8) (j : Nat) :
    (s.pbyte p r).getLsbD j = (decide (j < 8) && s.alignedColumn r (8 * p + j)) := by
  by_cases hj : j < 8
  · rw [pbyte_bit s p r j hj, decide_eq_true hj, Bool.true_and, State.alignedColumn]
  · simp [hj, BitVec.getLsbD_of_ge _ j (Nat.not_lt.1 hj)]

/-- The word of a PANELROW (R76, R90). -/
theorem encode_panelrow (r : Fin 8) (p : BitVec 16) :
    encode (.panelrow r p) = BitVec.ofNat 72 ((p.toNat <<< 8) ||| (r.val <<< 4) ||| 0x5) := by
  rw [encode_eq_ofNat, argument_panelrow_toNat, payload_panelrow_toNat]
  rfl

/-- Settles O37: in range the response is the panel byte, whose bits are aligned columns; out of range it is O38. -/
theorem panelrowReadsTheAlignedColumns : Obligations.PanelrowReadsTheAlignedColumns := by
  refine ⟨fun _ r p => decode_iff_eq (encode_panelrow r p), fun s r p hin => ?_, panelrowOutOfRangeIsRejected⟩
  refine ⟨_, (s.pbyte p.toNat r).setWidth 32, exec_panelrow_inRange hin r, sameBuffer_sendRsp _ _ s,
    samePorts_sendRsp _ _ s, rfl, ?_, fun j => ?_⟩
  · rw [State.sendRsp_responses, byte_response]
  · rw [BitVec.getLsbD_setWidth, pbyte_getLsbD]
    by_cases hj : j < 8
    · have hj32 : j < 32 := by omega
      simp [hj32]
    · simp [hj]

/-! The panel bytes and the row. -/

/-- Settles O42: RIGHT does not shift, so the panel byte is cut from the row itself. -/
theorem rightReadsTheComposedBits : Obligations.RightReadsTheComposedBits := fun s p r hright => by
  rw [pbyte_toNat, aligned_of_shift_zero (shift_of_right hright), Nat.shiftRight_eq_div_pow]

/-- The first `n` panel bytes of a row, each at its place, are the low `8n` columns of the aligned row (R165). -/
theorem sum_pbyte_eq_aligned_mod (s : State) (r : Fin 8) (n : Nat) :
    ((List.range n).map fun p => (s.pbyte p r).toNat <<< (8 * p)).sum = s.aligned r % 2 ^ (8 * n) := by
  induction n with
  | zero => simp [Nat.mod_one]
  | succ n ih =>
    rw [List.range_succ, List.map_append, List.sum_append, ih, List.map_singleton, List.sum_singleton, pbyte_toNat,
      Nat.shiftLeft_eq, Nat.mul_succ, Nat.pow_add, Nat.mod_mul, Nat.mul_comm (2 ^ (8 * n))]

/-- Settles O39: the aligned row has no column outside the panels, so the panel bytes lose none of it. -/
theorem panelBytesCoverTheRow : Obligations.PanelBytesCoverTheRow := by
  intro s r hcursor hrows
  have hfits : s.aligned r < 2 ^ (8 * s.pcount) := alignedRowFitsTheChain s r hcursor hrows
  have hcover : ((List.range s.pcount).map fun p => (s.pbyte p r).toNat <<< (8 * p)).sum = s.aligned r := by
    rw [sum_pbyte_eq_aligned_mod, Nat.mod_eq_of_lt hfits]
  refine ⟨hcover.symm, fun hone => ?_⟩
  rw [hone] at hcover
  simpa using hcover

/-! The cleared buffer. -/

/-- What every command of a list keeps, the list keeps. -/
theorem execAll_keeps {K : State → Prop} (is : List Instr)
    (hkeeps : ∀ i ∈ is, ∀ s t, K s → exec i s = .next t → K t) :
    ∀ s, K s → ∃ t, execAll is s = .next t ∧ K t := by
  induction is with
  | nil => exact fun s hs => ⟨s, rfl, hs⟩
  | cons i is ih =>
    intro s hs
    obtain ⟨hhead, htail⟩ := List.forall_mem_cons.1 hkeeps
    obtain ⟨t, e⟩ := exec_total i s
    obtain ⟨u, he, hu⟩ := ih htail t (hhead s t hs e)
    exact ⟨u, (execAll_next e is).trans he, hu⟩

/-- A buffer that is cleared stays so, unless an APPEND of a valid glyph that fits the whole chain comes. -/
theorem exec_keeps_cleared {i : Instr} {s t u : State}
    (hi : ∀ g, i = .append g → g.valid = false ∨ s.totalWidth < g.width.toNat) (h : s.cleared.SameComposition t)
    (e : exec i t = .next u) : s.cleared.SameComposition u := by
  rcases exec_rows_cursor e with ⟨hrows, hcursor⟩ | rfl | ⟨g, rfl, hvalid, hfit⟩
  · exact h.trans ⟨hrows, hcursor, exec_pcount e⟩
  · cases e
    exact ⟨rfl, rfl, h.pcount⟩
  · have hcap : t.totalWidth = s.totalWidth := congrArg (8 * ·) h.pcount
    rcases hi g rfl with hinvalid | hwide
    · simp [hvalid] at hinvalid
    · omega

/-- Every panel byte of a cleared buffer is 0, whatever the mode (R166). -/
theorem pbyte_of_cleared {s t : State} (h : s.cleared.SameComposition t) (p : Nat) (r : Fin 8) : t.pbyte p r = 0 := by
  have hrow : t.rows[r] < 2 ^ t.cursor := by simp [h.rows, h.cursor]
  rw [State.pbyte, aligned_of_cursor_zero hrow h.cursor, Nat.zero_shiftRight, Nat.zero_and]
  rfl

/-- Settles O40: CLEAR clears the buffer, every command after it keeps it cleared, and a cleared buffer has panel bytes 0. -/
theorem clearedPanelsReadZero : Obligations.ClearedPanelsReadZero := by
  intro s is hrejected
  obtain ⟨t, he, hcleared⟩ := execAll_keeps (K := s.cleared.SameComposition) is
    (fun i hi _ _ => exec_keeps_cleared fun g hg => hrejected g (hg ▸ hi)) (s.cleared.sendRsp false 0) ⟨rfl, rfl, rfl⟩
  refine ⟨t, (execAll_next (exec_clear s) is).trans he, fun r p hin => ⟨_, exec_panelrow_inRange hin r, ?_⟩⟩
  rw [State.sendRsp_responses, byte_response, pbyte_of_cleared hcleared]
  rfl

end Sys2Proof.Machine
end

section
/-! SUPPORT. RENDER as a command: what it does when it is accepted, and which commands write its counter (R182, R187). -/

namespace Sys2Proof.Machine

/-- Settles O60: a command that is no RENDER is a rejection, a response, CLEAR, a merge or a new mode, and none of these
writes the counter. -/
theorem onlyRenderWritesTheCounter : Obligations.OnlyRenderWritesTheCounter := by
  intro i s t hi h
  rcases exec_cases h with
    ⟨_, _, rfl⟩ | ⟨_, rfl⟩ | ⟨_, rfl⟩ | ⟨_, _, _, _, rfl⟩ | ⟨_, _, rfl⟩ | ⟨hr, _⟩ | ⟨hr, _⟩
  · exact ⟨rfl, rfl⟩
  · exact ⟨rfl, rfl⟩
  · exact ⟨rfl, rfl⟩
  · exact ⟨rfl, rfl⟩
  · exact ⟨rfl, rfl⟩
  · exact absurd hr hi
  · exact absurd hr hi

theorem exec_render_of_no_panels {s : State} (h : s.pcount = 0) : exec .render s = .next s.renderDone :=
  congrArg _ (if_pos h)

theorem exec_render_of_panels {s : State} (h : s.pcount ≠ 0) : exec .render s = .next (s.sendRow 0 0) :=
  congrArg _ (if_neg h)

/-- A step that accepts a RENDER runs it. -/
theorem step_accepts_render {s s' : State} (ha : s.Accepts (encode .render) s') : step s = exec .render s' :=
  stepRunsTheDecodedCommand s s' _ _ ha (decode_encode .render)

/-- Settles O43: the end of a RENDER responds 0 and leaves all but the phase and the counter. -/
theorem renderOfNoPanelsEndsAtOnce : Obligations.RenderOfNoPanelsEndsAtOnce := by
  intro s hzero
  refine ⟨_, exec_render_of_no_panels hzero, rfl, ?_, rfl, ⟨rfl, rfl, rfl, rfl⟩, rfl, rfl, rfl⟩
  rw [State.renderDone_responses, Rsp.make_false_zero]

/-- Settles O44: the first byte is panel 0's byte of row 0, the aligned columns 0 to 7. -/
theorem renderSendsItsFirstByte : Obligations.RenderSendsItsFirstByte := by
  intro s hne
  refine ⟨_, s.pbyte 0 0, exec_render_of_panels hne, rfl, rfl, rfl, rfl, fun j hj => ?_, rfl, ⟨rfl, rfl, rfl, rfl⟩, rfl,
    rfl, rfl⟩
  rw [pbyte_bit s 0 0 j hj, Nat.mul_zero, Nat.zero_add, State.alignedColumn]

end Sys2Proof.Machine
end

section
/-! SUPPORT. The requests of a whole RENDER, as a set and in their order (R181, R185). -/

namespace Sys2Proof.Machine

theorem mem_renderOrder {n p : Nat} {r : Fin 8} : (p, r) ∈ renderOrder n ↔ p < n := by
  simp [renderOrder]

theorem mem_renderRequests {s : State} {q : DrvReq} :
    q ∈ s.renderRequests ↔ ∃ p r, p < s.pcount ∧ q = s.rowset p r := by
  simp [State.renderRequests, mem_renderOrder, eq_comm]

/-- Settles O47: a panel of the chain has a 16-bit index, and PANELROW of that index responds the request's byte. -/
theorem renderBytesAreThePanelrowBytes : Obligations.RenderBytesAreThePanelrowBytes := by
  intro s hsize
  refine ⟨fun q hq => ?_, fun p r hp => ?_⟩
  · obtain ⟨p, r, hp, rfl⟩ := mem_renderRequests.1 hq
    have hindex : (BitVec.ofNat 16 p).toNat = p := Nat.mod_eq_of_lt (by omega)
    exact ⟨BitVec.ofNat 16 p, r, by rwa [hindex], by rw [hindex]⟩
  · refine ⟨_, s.pbyte p.toNat r, mem_renderRequests.2 ⟨p.toNat, r, hp, rfl⟩, exec_panelrow_inRange hp r, ?_⟩
    rw [State.sendRsp_responses, byte_response]

/-- The requests depend on the buffer alone (R183). -/
theorem renderRequests_congr {s t : State} (h : s.SameBuffer t) : t.renderRequests = s.renderRequests := by
  simp only [State.renderRequests, rowset_congr h, h.pcount]

/-- Eight bytes for each panel (R185). -/
theorem renderRequests_length (s : State) : s.renderRequests.length = 8 * s.pcount := by
  rw [State.renderRequests, renderOrder_eq, List.length_map, List.length_map, List.length_range]

/-- The byte of panel `p` and row `r` is sent after `8p + r` others (R185). -/
theorem renderRequests_getElem? {s : State} {p : Nat} (hp : p < s.pcount) (r : Fin 8) :
    s.renderRequests[8 * p + r.val]? = some (s.rowset p r) := by
  have hplace : 8 * p + r.val < 8 * s.pcount := by omega
  have hpanel : (8 * p + r.val) / 8 = p := by omega
  have hrow : Fin.ofNat 8 (8 * p + r.val) = r := Fin.ext (by simp)
  rw [State.renderRequests, renderOrder_eq, List.getElem?_map, List.getElem?_map, List.getElem?_range hplace,
    Option.map_some, Option.map_some, hpanel, hrow]

/-- Sending the byte of panel `p` and row `r` after all bytes before it. -/
theorem take_renderRequests_succ {s : State} {p : Nat} (hp : p < s.pcount) (r : Fin 8) :
    s.renderRequests.take (8 * p + r.val + 1) = s.renderRequests.take (8 * p + r.val) ++ [s.rowset p r] := by
  rw [List.take_add_one, renderRequests_getElem? hp r, Option.toList_some]

end Sys2Proof.Machine
end

section
/-! SUPPORT. A step while the driver's answer is outstanding: waiting for it, or going on with a RENDER by it (R182, R186,
R267, R271). -/

namespace Sys2Proof.Machine

/-! Waiting. -/

/-- The phases with a driver request outstanding (R57). -/
def Phase.AwaitsDriver (ph : Phase) : Prop := ph = .resetSeq .initSent ∨ ph = .resetSeq .querySent ∨ ph = .rendering

/-- A turn that neither answers the request outstanding nor asserts reset. -/
def Turn.Unanswering (x : Turn) : Prop := x = .fbc ∨ (∃ cw, x = .host cw) ∨ ∃ a, x = .lateDriver a

/-- The FBC waits for the driver (R186, R267). -/
theorem fbcTurn_awaitsDriver {s : State} (h : s.phase.AwaitsDriver) : fbcTurn s = .next s := by
  rcases h with hp | hp | hp <;> simp only [fbcTurn, hp]

/-- The next turn is the FBC's or the first of the turns to come, and the turns after it are among them (log 5). -/
theorem nextTurn_of_forall {s : State} {K : Turn → Prop} (hfbc : K .fbc) (h : ∀ x ∈ s.agenda, K x) :
    K s.nextTurn.1 ∧ ∀ x ∈ s.nextTurn.2, K x := by
  unfold State.nextTurn
  cases ha : s.agenda with
  | nil => exact ⟨hfbc, by simp⟩
  | cons x rest => exact List.forall_mem_cons.1 (ha ▸ h)

/-- The state after some waiting, in which `words` were offered: `turns` are still to come. -/
def State.waited (words : List CmdWord) (turns : List Turn) (s : State) : State :=
  { s with offered := s.offered ++ words, agenda := turns }

theorem waited_self (s : State) : s.waited [] s.agenda = s := by simp [State.waited]

theorem waited_waited (ws ws' : List CmdWord) (turns turns' : List Turn) (s : State) :
    (s.waited ws turns).waited ws' turns' = s.waited (ws ++ ws') turns' := by
  simp [State.waited]

/-- Without an answer a step takes its turn and takes in the word offered, and does nothing else. -/
theorem step_awaitsDriver {s : State} (hp : s.phase.AwaitsDriver) (hx : s.nextTurn.1.Unanswering) :
    step s = .next (s.waited (hostWords [s.nextTurn.1]) s.nextTurn.2) := by
  rcases hx with hx | ⟨cw, hx⟩ | ⟨a, hx⟩
  · simp [step, State.takeTurn, hx, fbcTurn_awaitsDriver (s := s.turnTaken) hp, State.waited]
  · simp [step, State.takeTurn, hx, State.hostOffers, State.waited]
  · simp [step, State.takeTurn, hx, State.waited]

/-- Without an answer any number of steps is a wait. -/
theorem runSteps_awaitsDriver (k : Nat) : ∀ {s : State}, s.phase.AwaitsDriver → (∀ x ∈ s.agenda, x.Unanswering) →
    ∃ words turns, runSteps k s = .next (s.waited words turns) := by
  induction k with
  | zero => exact fun {s} _ _ => ⟨[], s.agenda, by rw [waited_self, runSteps]⟩
  | succ k ih =>
    intro s hp hall
    obtain ⟨hnext, hafter⟩ := nextTurn_of_forall (.inl rfl) hall
    obtain ⟨words, turns, hrun⟩ := ih (s := s.waited (hostWords [s.nextTurn.1]) s.nextTurn.2) hp hafter
    exact ⟨_, turns, by rw [runSteps_next (step_awaitsDriver hp hnext), hrun, waited_waited]⟩

/-- Settles O14: a wait changes the words on offer and the turns to come alone. -/
theorem unansweredDriverIsAStuckState : Obligations.UnansweredDriverIsAStuckState := by
  intro k s hp hall
  obtain ⟨words, turns, hrun⟩ := runSteps_awaitsDriver k hp hall
  exact ⟨_, hrun, rfl, rfl, rfl, ⟨words, rfl⟩, ⟨rfl, rfl, rfl, rfl⟩, rfl, fun _ => ⟨rfl, rfl⟩⟩

/-! Going on with a RENDER. -/

/-- Before the last byte an OK moves the counter to the next byte and sends it (R182, R185). -/
theorem renderNext_of_more {s : State} (h : 8 * s.rp + s.rr.val + 1 < 8 * s.pcount) :
    ∃ p r, s.renderNext = s.sendRow p r ∧ 8 * p + r.val = 8 * s.rp + s.rr.val + 1 := by
  rcases renderNext_cases s with ⟨hrow, e⟩ | ⟨hrow, _, e⟩ | ⟨hrow, hlast, _⟩
  · exact ⟨_, _, e, by omega⟩
  · exact ⟨_, _, e, by simp [hrow]; omega⟩
  · have hrow : s.rr.val = 7 := congrArg Fin.val hrow
    omega

/-- After the last byte an OK ends the RENDER (R182). -/
theorem renderNext_of_last {s : State} (h : 8 * s.rp + s.rr.val + 1 = 8 * s.pcount) : s.renderNext = s.renderDone := by
  rcases renderNext_cases s with ⟨hrow, _⟩ | ⟨_, hmore, _⟩ | ⟨_, _, e⟩
  · omega
  · omega
  · exact e

/-- What follows an OK leaves the buffer, the flags, the words on offer and the turns to come (R183). -/
theorem renderNext_frame (s : State) :
    s.SameBuffer s.renderNext ∧ s.renderNext.status = s.status ∧ s.renderNext.offered = s.offered ∧
      s.renderNext.agenda = s.agenda := by
  rcases renderNext_cases s with ⟨_, e⟩ | ⟨_, _, e⟩ | ⟨_, _, e⟩ <;> rw [e] <;>
    exact ⟨⟨rfl, rfl, rfl, rfl⟩, rfl, rfl, rfl⟩

/-- An aborted RENDER sets no other bit of STATUS than DRVERR's (R184). -/
theorem renderAborted_other_bits (s : State) {b : Nat} (hb : b ≠ 4) :
    s.renderAborted.status.getLsbD b = s.status.getLsbD b := by
  have hbit : b ≠ Flag.drverr.bit := hb
  simp [Flag.mask_bit, hbit]

/-- Settles O48: a step in RENDERING takes its turn, and an OK moves the RENDER on while a FAIL aborts it. -/
theorem renderingKeepsTheBuffer : Obligations.RenderingKeepsTheBuffer := by
  intro s t hp hn h
  rcases step_rendering_cases hp hn h with ⟨hok, hfail, rfl⟩ | ⟨hok, rfl⟩ | ⟨hfail, rfl⟩
  · exact ⟨⟨rfl, rfl, rfl, rfl⟩, rfl, rfl, fun _ _ => ⟨hp, rfl, rfl, rfl, rfl, rfl⟩, fun h => absurd h hok,
      fun h => absurd h hfail⟩
  · obtain ⟨hbuffer, hstatus, hoffered, hagenda⟩ := renderNext_frame s.turnTaken
    refine ⟨⟨hbuffer.rows, hbuffer.cursor, hbuffer.align, hbuffer.pcount⟩, hagenda, by simp [hoffered, hok],
      fun h => absurd hok h, fun _ _ => ⟨hstatus, fun hmore => ?_, fun hlast => ?_⟩, fun h => by simp [hok] at h⟩
    · obtain ⟨p, r, e, hplace⟩ := renderNext_of_more (s := s.turnTaken) hmore
      rw [e]
      exact ⟨rfl, hplace, rfl, rfl⟩
    · rw [renderNext_of_last (s := s.turnTaken) hlast]
      exact ⟨rfl, rfl, by rw [State.renderDone_responses, Rsp.make_false_zero]⟩
  · refine ⟨⟨rfl, rfl, rfl, rfl⟩, rfl, by simp [hfail], fun _ h => absurd hfail h, fun h => by simp [hfail] at h,
      fun _ => ⟨rfl, rfl, ?_, ?_, fun b hb => renderAborted_other_bits s.turnTaken hb⟩⟩
    · rw [State.renderAborted_responses, Rsp.make_true_zero]
    · simp [hasFlag_renderAborted]

end Sys2Proof.Machine
end

section
/-! SUPPORT. A whole RENDER: what has happened after any turns during it, by the number of OKs among them (R182 to R185). -/

namespace Sys2Proof.Machine

theorem nextTurn_of_agenda {s : State} {x : Turn} {turns : List Turn} (h : s.agenda = x :: turns) :
    s.nextTurn = (x, turns) := by
  simp only [State.nextTurn, h]

theorem State.SameBuffer.trans {s t u : State} (h : s.SameBuffer t) (h' : t.SameBuffer u) : s.SameBuffer u :=
  ⟨h'.rows.trans h.rows, h'.cursor.trans h.cursor, h'.align.trans h.align, h'.pcount.trans h.pcount⟩

theorem runSteps_succ {s t u : State} {k : Nat} (h : runSteps k s = .next t) (hstep : step t = .next u) :
    runSteps (k + 1) s = .next u :=
  (runSteps_add h 1).trans (runSteps_next hstep 0)

/-! A step in RENDERING, by its turn. -/

section Step
variable {s : State} {turns : List Turn} (hp : s.phase = .rendering)
include hp

theorem step_rendering_ok (hn : s.nextTurn = (.driver .ok, turns)) :
    step s = .next (State.renderNext { s with agenda := turns }) := by
  rw [step_driver hn]
  simp only [State.driverAnswers, hp]

theorem step_rendering_fail (hn : s.nextTurn = (.driver .fail, turns)) :
    step s = .next (State.renderAborted { s with agenda := turns }) := by
  rw [step_driver hn]
  simp only [State.driverAnswers, hp]

/-- Every other turn but a reset is waited through, an answer of another kind too (log 7). -/
theorem step_rendering_wait {x : Turn} (hn : s.nextTurn = (x, turns)) (hreset : x ≠ .platform) (hok : x ≠ .driver .ok)
    (hfail : x ≠ .driver .fail) : step s = .next (s.waited (hostWords [x]) turns) := by
  cases x with
  | driver a =>
    cases a with
    | ok => exact absurd rfl hok
    | fail => exact absurd rfl hfail
    | count n => simp [step_driver hn, State.driverAnswers, hp, State.waited]
  | platform => exact absurd rfl hreset
  | fbc | host | lateDriver =>
    have hstep := step_awaitsDriver (s := s) (.inr (.inr hp)) (by simp [hn, Turn.Unanswering])
    rwa [hn] at hstep

end Step

/-! The state of a RENDER after some turns. -/

/-- `t` is a RENDER that began in `s`, still going on after the turns `during`: its counter stands at the byte whose number
is the number of OKs, that byte is the last one sent, and the words offered wait. -/
structure State.RendersAfter (s : State) (during : List Turn) (t : State) : Prop where
  phase : t.phase = .rendering
  buffer : s.SameBuffer t
  status : t.status = s.status
  place : 8 * t.rp + t.rr.val = during.count (.driver .ok)
  requests : t.requests = s.requests ++ s.renderRequests.take (during.count (.driver .ok) + 1)
  responses : t.responses = s.responses
  offered : t.offered = s.offered ++ hostWords during

/-- `t` is the end of a RENDER that began in `s` and whose requests were all answered OK, after the turns `during`. -/
structure State.RenderedAfter (s : State) (during : List Turn) (t : State) : Prop where
  phase : t.phase = .idle
  buffer : s.SameBuffer t
  status : t.status = s.status
  requests : t.requests = s.requests ++ s.renderRequests
  responses : t.responses = s.responses ++ [0x00000000#32]
  offered : t.offered = s.offered ++ hostWords during

/-- Without panels a RENDER is at its end at once (R187). -/
theorem renderDone_renderedAfter_nil {s : State} (hzero : s.pcount = 0) : s.RenderedAfter [] s.renderDone where
  phase := rfl
  buffer := ⟨rfl, rfl, rfl, rfl⟩
  status := rfl
  requests := by
    have hnone : s.renderRequests = [] := List.length_eq_zero_iff.1 (by rw [renderRequests_length, hzero])
    rw [State.renderDone_requests, hnone, List.append_nil]
  responses := by rw [State.renderDone_responses, Rsp.make_false_zero]
  offered := (List.append_nil _).symm

/-- A RENDER begins with its first byte (R182). -/
theorem sendRow_rendersAfter_nil {s : State} (hne : s.pcount ≠ 0) : s.RendersAfter [] (s.sendRow 0 0) where
  phase := rfl
  buffer := ⟨rfl, rfl, rfl, rfl⟩
  status := rfl
  place := rfl
  requests := congrArg _ (take_renderRequests_succ (Nat.pos_of_ne_zero hne) 0).symm
  responses := rfl
  offered := (List.append_nil _).symm

section Turns
variable {s t : State} {during turns : List Turn} (h : s.RendersAfter during t)
include h

/-- The turns to come do not matter to a RENDER. -/
theorem State.RendersAfter.withAgenda (turns : List Turn) : s.RendersAfter during { t with agenda := turns } :=
  { h with buffer := h.buffer.trans ⟨rfl, rfl, rfl, rfl⟩ }

/-- After one OK more the next byte is sent (R185). -/
theorem State.RendersAfter.sendRow {p : Nat} {r : Fin 8} (hp : p < s.pcount)
    (hplace : 8 * p + r.val = during.count (.driver .ok) + 1) :
    s.RendersAfter (during ++ [.driver .ok]) (t.sendRow p r) := by
  have hcount : (during ++ [Turn.driver .ok]).count (.driver .ok) = 8 * p + r.val := by simp [hplace]
  refine ⟨rfl, h.buffer.trans ⟨rfl, rfl, rfl, rfl⟩, h.status, hcount.symm, ?_, h.responses, ?_⟩
  · rw [State.sendRow_requests, h.requests, hcount, take_renderRequests_succ hp, rowset_congr h.buffer, hplace,
      List.append_assoc]
  · simp [h.offered]

/-- A turn that is waited through leaves the RENDER where it is (R271). -/
theorem State.RendersAfter.waited {x : Turn} (hok : x ≠ .driver .ok) :
    s.RendersAfter (during ++ [x]) (t.waited (hostWords [x]) turns) := by
  have hcount : (during ++ [x]).count (.driver .ok) = during.count (.driver .ok) := by simp [List.count_append, hok]
  refine ⟨h.phase, h.buffer.trans ⟨rfl, rfl, rfl, rfl⟩, h.status, h.place.trans hcount.symm, ?_, h.responses, ?_⟩
  · rw [hcount]
    exact h.requests
  · rw [hostWords_append, ← List.append_assoc, ← h.offered]
    rfl

/-- A turn that is no reset, no FAIL and no OK of the last byte leaves the RENDER going on. -/
theorem State.RendersAfter.next {x : Turn} (ha : t.agenda = x :: turns) (hreset : x ≠ .platform)
    (hfail : x ≠ .driver .fail) (hmore : (during ++ [x]).count (.driver .ok) < 8 * s.pcount) :
    ∃ u, step t = .next u ∧ s.RendersAfter (during ++ [x]) u ∧ u.agenda = turns := by
  have hturn := nextTurn_of_agenda ha
  by_cases hok : x = .driver .ok
  · subst hok
    have hplace := h.place
    have hpcount := h.buffer.pcount
    have hcount : (during ++ [Turn.driver .ok]).count (.driver .ok) = during.count (.driver .ok) + 1 := by simp
    obtain ⟨p, r, e, hplace'⟩ :=
      renderNext_of_more (s := { t with agenda := turns }) (show 8 * t.rp + t.rr.val + 1 < 8 * t.pcount by omega)
    have hplace' : 8 * p + r.val = 8 * t.rp + t.rr.val + 1 := hplace'
    exact ⟨_, (step_rendering_ok h.phase hturn).trans (congrArg _ e),
      (h.withAgenda turns).sendRow (by omega) (by omega), rfl⟩
  · exact ⟨_, step_rendering_wait h.phase hturn hreset hok hfail, h.waited hok, rfl⟩

/-- The OK of the last byte ends the RENDER with the response 0 (R182). -/
theorem State.RendersAfter.last (ha : t.agenda = .driver .ok :: turns)
    (hlast : during.count (.driver .ok) + 1 = 8 * s.pcount) :
    ∃ u, step t = .next u ∧ s.RenderedAfter (during ++ [.driver .ok]) u ∧ u.agenda = turns := by
  have hplace : 8 * t.rp + t.rr.val + 1 = 8 * t.pcount := by rw [h.place, h.buffer.pcount, hlast]
  refine ⟨_, (step_rendering_ok h.phase (nextTurn_of_agenda ha)).trans
    (congrArg _ (renderNext_of_last (s := { t with agenda := turns }) hplace)),
    ⟨rfl, h.buffer.trans ⟨rfl, rfl, rfl, rfl⟩, h.status, h.requests.trans ?_, ?_, ?_⟩, rfl⟩
  · rw [hlast, ← renderRequests_length, List.take_length]
  · rw [State.renderDone_responses, Rsp.make_false_zero, h.responses]
  · simp [h.offered]

/-- A FAIL ends the RENDER with DRVERR and a rejected response, and sends no further request (R184). -/
theorem State.RendersAfter.abort (ha : t.agenda = .driver .fail :: turns) :
    ∃ u, step t = .next u ∧
      u.requests = s.requests ++ s.renderRequests.take (during.count (.driver .ok) + 1) ∧
      u.hasFlag .drverr = true ∧ (∀ b, b ≠ 4 → u.status.getLsbD b = s.status.getLsbD b) ∧
      u.responses = s.responses ++ [0x80000000#32] ∧ u.phase = .idle ∧ s.SameBuffer u ∧
      u.offered = s.offered ++ hostWords during ∧ u.agenda = turns := by
  refine ⟨_, step_rendering_fail h.phase (nextTurn_of_agenda ha), h.requests, ?_, fun b hb => ?_, ?_, rfl,
    h.buffer.trans ⟨rfl, rfl, rfl, rfl⟩, h.offered, rfl⟩
  · simp [hasFlag_renderAborted]
  · rw [renderAborted_other_bits _ hb, h.status]
  · rw [State.renderAborted_responses, Rsp.make_true_zero, h.responses]

end Turns

/-! The run of a RENDER. -/

/-- A RENDER whose turns so far hold no reset, no FAIL and no OK of the last byte is still going on after them. -/
theorem runSteps_render {s : State} (during : List Turn) (hreset : .platform ∉ during) (hfail : .driver .fail ∉ during) :
    ∀ turns, s.agenda = during ++ turns → during.count (.driver .ok) < 8 * s.pcount →
      ∃ t, runSteps during.length (s.sendRow 0 0) = .next t ∧ s.RendersAfter during t ∧ t.agenda = turns := by
  induction during using List.reverseRecOn with
  | nil => exact fun _ ha hlt => ⟨_, rfl, sendRow_rendersAfter_nil (by simp at hlt; omega), ha⟩
  | append_singleton during x ih =>
    intro turns ha hlt
    rw [List.mem_append, not_or, List.mem_singleton] at hreset hfail
    have hbefore : during.count (.driver .ok) < 8 * s.pcount :=
      ((List.sublist_append_left during [x]).count_le _).trans_lt hlt
    obtain ⟨t, hrun, ht, hagenda⟩ := ih hreset.1 hfail.1 (x :: turns) (by simp [ha]) hbefore
    obtain ⟨u, hstep, hu, hturns⟩ := ht.next hagenda (Ne.symm hreset.2) (Ne.symm hfail.2) hlt
    exact ⟨u, by rw [List.length_append]; exact runSteps_succ hrun hstep, hu, hturns⟩

/-- From the step that accepts it, a RENDER is still going on after such turns. -/
theorem runSteps_accepts_render {s s' : State} {during turns : List Turn} (ha : s.Accepts (encode .render) s')
    (hagenda : s'.agenda = during ++ turns) (hreset : .platform ∉ during) (hfail : .driver .fail ∉ during)
    (hlt : during.count (.driver .ok) < 8 * s.pcount) :
    ∃ t, runSteps (during.length + 1) s = .next t ∧ s'.RendersAfter during t ∧ t.agenda = turns := by
  rw [← ha.sameBuffer.pcount] at hlt
  obtain ⟨t, hrun, ht⟩ := runSteps_render during hreset hfail turns hagenda hlt
  have hfirst := (step_accepts_render ha).trans (exec_render_of_panels (by omega))
  exact ⟨t, (runSteps_next hfirst _).trans hrun, ht⟩

/-- From the step that accepts it, a RENDER is at its end after the turns up to the last OK. -/
theorem runSteps_accepts_render_all {s s' : State} {during turns : List Turn} (ha : s.Accepts (encode .render) s')
    (hagenda : s'.agenda = during ++ turns) (hreset : .platform ∉ during) (hfail : .driver .fail ∉ during)
    (hall : during.count (.driver .ok) = 8 * s.pcount) (hend : during = [] ∨ during.getLast? = some (.driver .ok)) :
    ∃ t, runSteps (during.length + 1) s = .next t ∧ s'.RenderedAfter during t ∧ t.agenda = turns := by
  have hpcount := ha.sameBuffer.pcount
  rcases hend with rfl | hend
  · have hzero : s'.pcount = 0 := by simpa [hpcount] using hall.symm
    have hfirst := (step_accepts_render ha).trans (exec_render_of_no_panels hzero)
    exact ⟨_, runSteps_next hfirst 0, renderDone_renderedAfter_nil hzero, hagenda⟩
  · obtain ⟨before, rfl⟩ := List.getLast?_eq_some_iff.1 hend
    rw [List.mem_append, not_or] at hreset hfail
    have hcount : before.count (.driver .ok) + 1 = 8 * s.pcount := by simpa using hall
    obtain ⟨t, hrun, ht, hnext⟩ := runSteps_accepts_render ha (turns := .driver .ok :: turns) (by simp [hagenda])
      hreset.1 hfail.1 (by omega)
    obtain ⟨u, hstep, hu⟩ := ht.last hnext (by rw [hcount, hpcount])
    exact ⟨u, by rw [List.length_append]; exact runSteps_succ hrun hstep, hu⟩

/-- Settles O45: the RENDER goes on up to the last OK, which ends it; without panels it ends at once. -/
theorem renderSendsEveryPanelByteInOrder : Obligations.RenderSendsEveryPanelByteInOrder := by
  intro s s' during turns ha hagenda hreset hfail
  have hb := ha.sameBuffer
  refine ⟨renderRequests_length s, fun hlt => ?_, fun hall hend => ?_⟩ <;>
    rw [← ha.requests_eq, ← ha.responses_eq, ← ha.status_eq, ← renderRequests_congr hb]
  · obtain ⟨t, hrun, ht, hturns⟩ := runSteps_accepts_render ha hagenda hreset hfail hlt
    exact ⟨t, hrun, ht.requests, ht.responses, ht.phase, hb.trans ht.buffer, ht.status, ht.offered, hturns⟩
  · obtain ⟨t, hrun, ht, hturns⟩ := runSteps_accepts_render_all ha hagenda hreset hfail hall hend
    exact ⟨t, hrun, ht.requests, ht.responses, ht.phase, hb.trans ht.buffer, ht.status, ht.offered, hturns⟩

/-- Settles O46: the RENDER goes on up to the FAIL, which ends it. -/
theorem renderStopsAtTheFirstFailure : Obligations.RenderStopsAtTheFirstFailure := by
  rintro s s' k during turns ha hagenda hreset hfail rfl hk
  obtain ⟨t, hrun, ht, hturns⟩ := runSteps_accepts_render ha hagenda hreset hfail hk
  obtain ⟨u, hstep, hrequests, hflag, hother, hresponses, hphase, hbuffer, hoffered, hturns⟩ := ht.abort hturns
  rw [← ha.requests_eq, ← ha.responses_eq, ← ha.status_eq, ← renderRequests_congr ha.sameBuffer]
  refine ⟨u, runSteps_succ hrun hstep, hrequests, ?_, hflag, hother, hresponses, hphase,
    ha.sameBuffer.trans hbuffer, hoffered, hturns⟩
  rw [List.length_take, renderRequests_length, ha.sameBuffer.pcount, Nat.min_eq_left hk]

end Sys2Proof.Machine
end

section
/-! SUPPORT. GETCURSOR, GETPCOUNT and GETSTATUS: each responds a part of the state (R200 to R204). -/

namespace Sys2Proof.Machine

theorem exec_getcursor (s : State) : exec .getcursor s = .next (s.sendRsp false (zext24 s.cursor)) := rfl

theorem exec_getpcount (s : State) : exec .getpcount s = .next (s.sendRsp false (zext24 s.pcount)) := rfl

theorem exec_getstatus (s : State) : exec .getstatus s = .next (s.sendRsp false (zext24 s.statusRead.toNat)) := rfl

/-- A number that fits `DATA` is the whole response (R13, R86). -/
theorem number_response_toNat {v : Nat} (h : v < 2 ^ 24) : (Rsp.make false (zext24 v)).toNat = v := by
  rw [rsp_make_false, BitVec.toNat_setWidth_of_le (by decide), zext24_toNat h]

/-- The chain's width has a bound because the panel count has one (R8, R9). -/
theorem totalWidth_le {s : State} (h : s.pcount ≤ 65536) : s.totalWidth ≤ 524288 := Nat.mul_le_mul_left 8 h

/-- The mask of the read keeps the six flags (R28). -/
theorem statusRead_getLsbD (s : State) (k : Nat) :
    s.statusRead.getLsbD k = (decide (k < 6) && s.status.getLsbD k) := by
  have hmask : (0x3F : BitVec 8) = (BitVec.allOnes 6).setWidth 8 := by decide
  rw [State.statusRead, hmask, BitVec.getLsbD_and, BitVec.getLsbD_setWidth, BitVec.getLsbD_allOnes, Bool.and_comm]
  by_cases hk : k < 6
  · have hk8 : k < 8 := by omega
    simp [hk8]
  · simp [hk]

/-- Settles O50: `CURSOR` is at most `W`, which fits `DATA`, so the response is `CURSOR` itself. -/
theorem getcursorRespondsTheCursor : Obligations.GetcursorRespondsTheCursor := by
  refine ⟨fun _ => decode_iff_eq (by decide), fun s hcursor hpcount => ?_⟩
  have hle : s.cursor ≤ 524288 := hcursor.trans (totalWidth_le hpcount)
  have hrsp := number_response_toNat (v := s.cursor) (by omega)
  exact ⟨_, _, exec_getcursor s, rfl, hrsp, hrsp.trans_le hle, sameBuffer_sendRsp _ _ s, samePorts_sendRsp _ _ s, rfl⟩

/-- Settles O51: the largest panel count fits `DATA`, so the response is `P` itself. -/
theorem getpcountRespondsTheCount : Obligations.GetpcountRespondsTheCount :=
  ⟨fun _ => decode_iff_eq (by decide), fun s _ => ⟨_, _, exec_getpcount s, rfl, number_response_toNat (by omega),
    sameBuffer_sendRsp _ _ s, samePorts_sendRsp _ _ s, rfl⟩⟩

/-- Settles O52: the response is `STATUS` as it is read, extended by zeros, and a response leaves the flags. -/
theorem getstatusRespondsTheFlags : Obligations.GetstatusRespondsTheFlags := by
  refine ⟨fun _ => decode_iff_eq (by decide), fun s => ⟨_, _, exec_getstatus s, rfl, fun k => ?_,
    sameBuffer_sendRsp _ _ s, samePorts_sendRsp _ _ s, rfl⟩⟩
  rw [byte_response, BitVec.getLsbD_setWidth, statusRead_getLsbD]
  by_cases hk : k < 6
  · have hk32 : k < 32 := by omega
    simp [hk32]
  · simp [hk]

end Sys2Proof.Machine
end

section
/-! SUPPORT. Exceptions: the event that raises each cause decides the rejection, and no step traps (R220 to R225). -/

namespace Sys2Proof.Machine

/-- Performing a word raises no driver cause (R223). -/
theorem Flag.RaisedBy.commandCause {d : Option Instr} {s : State} {f : Flag} (h : f.RaisedBy d s) :
    f = .ill ∨ f = .badw ∨ f = .ovf ∨ f = .range := by
  cases f with
  | ill => exact .inl rfl
  | badw => exact .inr (.inl rfl)
  | ovf => exact .inr (.inr (.inl rfl))
  | range => exact .inr (.inr (.inr rfl))
  | drverr | cfgerr => exact h.elim

/-- The event of a flag decides the outcome, so no two events come together: R225's checks exclude each other. -/
theorem perform_raised {cw : CmdWord} {s : State} {f : Flag} (h : f.RaisedBy (decode cw) s) :
    perform cw s = .next (s.rejected f) := by
  cases f with
  | ill =>
    rcases h with hd | hd
    · exact perform_illegal hd s
    · exact perform_decoded hd s
  | badw =>
    obtain ⟨g, hd, hv⟩ := h
    have hw : ¬ (1 ≤ g.width.toNat ∧ g.width.toNat ≤ 8) := by simp [← glyph_valid_iff, hv]
    rw [perform_decoded hd, exec_append_badWidth (by omega)]
  | ovf =>
    obtain ⟨g, hd, hv, hover⟩ := h
    obtain ⟨hpos, hle⟩ := (glyph_valid_iff g).1 hv
    rw [perform_decoded hd, exec_append_overflow hpos hle hover]
  | range =>
    obtain ⟨r, p, hd, hout⟩ := h
    rw [perform_decoded hd, exec_panelrow_outOfRange hout]
  | drverr | cfgerr => exact h.elim

/-- Wherever a word led, if the event of a flag had come, it was that flag's rejection (R221). -/
theorem rejectedFrom_of_raised {cw : CmdWord} {s t : State} {f : Flag} (ht : perform cw s = .next t)
    (h : f.RaisedBy (decode cw) s) : s.RejectedFrom f t := by
  cases ht.symm.trans (perform_raised h)
  exact rejected_from f s

/-- Every word, legal or not, answers a next state (R220, R221). -/
theorem perform_total (cw : CmdWord) (s : State) : ∃ t, perform cw s = .next t := by
  cases hd : decode cw with
  | none => exact ⟨_, perform_illegal hd s⟩
  | some i => exact perform_decoded hd s ▸ exec_total i s

/-- The FBC's turn answers a next state: it sends INIT, waits, or performs a word (R33, R262). -/
theorem fbcTurn_total (s : State) : ∃ t, fbcTurn s = .next t := by
  cases hp : s.phase with
  | resetSeq place => cases place <;> simp [fbcTurn, hp]
  | rendering => simp [fbcTurn, hp]
  | idle =>
    cases ho : s.offered with
    | nil => simp [fbcTurn, hp, ho]
    | cons cw rest => exact fbcTurn_idle hp ho ▸ perform_total cw { s with offered := rest }

/-- A turn of any agent answers a next state. -/
theorem takeTurn_total (x : Turn) (s : State) : ∃ t, s.takeTurn x = .next t := by
  cases x with
  | fbc => exact fbcTurn_total s
  | host | driver | lateDriver | platform => exact ⟨_, rfl⟩

/-- Settles O19: a word that writes STATUS is rejected with a flag whose event has come, and each event is its rejection. -/
theorem commandsRaiseAtMostOneCause : Obligations.CommandsRaiseAtMostOneCause := by
  intro cw s
  obtain ⟨t, ht⟩ := perform_total cw s
  refine ⟨t, ht, ?_, fun hd => rejectedFrom_of_raised ht (.inl hd), fun hd => rejectedFrom_of_raised ht (.inr hd),
    fun g hd hv => rejectedFrom_of_raised ht (f := .badw) ⟨g, hd, hv⟩,
    fun g hd hv hover => rejectedFrom_of_raised ht (f := .ovf) ⟨g, hd, hv, hover⟩,
    fun r p hd hout => rejectedFrom_of_raised ht (f := .range) ⟨r, p, hd, hout⟩⟩
  exact (perform_status_cases ht).imp_right fun ⟨f, hf, _⟩ => ⟨f, hf.commandCause, rejectedFrom_of_raised ht hf⟩

/-- Settles O22: a step is a turn of one agent, and every turn answers a next state. -/
theorem theMachineNeverTraps : Obligations.TheMachineNeverTraps := fun s => takeTurn_total s.nextTurn.1 s.turnTaken

end Sys2Proof.Machine
end

section
/-! SUPPORT. Reset, the reset sequence with the driver, and the words that wait while the port is not ready (R260 to R271). -/

namespace Sys2Proof.Machine

/-! Asserting reset. -/

/-- Every row is empty after reset (R35, R261). -/
theorem reset_row (r : Fin 8) : State.reset.rows[r] = 0 := by simp [State.reset]

/-- Settles O9: the rows are empty, and the other fields have their reset values by definition. -/
theorem resetLeavesAnEmptyBuffer : Obligations.ResetLeavesAnEmptyBuffer :=
  ⟨reset_row, rfl, rfl, rfl, rfl⟩

/-- A late answer takes its turn and changes nothing else (R260). -/
theorem step_lateDriver {s : State} {a : DrvAns} {turns : List Turn} (hn : s.nextTurn = (.lateDriver a, turns)) :
    step s = .next { s with agenda := turns } := by
  simp [step, hn, State.takeTurn]

/-- Before INIT is sent no request waits for an answer (R260). -/
theorem driverAnswers_start {s : State} (hp : s.phase = .resetSeq .start) (a : DrvAns) : s.driverAnswers a = s := by
  simp only [State.driverAnswers, hp]

/-- Settles O10: the platform's turn asserts reset, and an answer that no request waits for takes its turn alone. -/
theorem assertedResetAbandonsAll : Obligations.AssertedResetAbandonsAll := by
  refine ⟨fun s turns hn => ?_, fun s a turns hp hn => ?_, fun s a turns hn => step_lateDriver hn⟩
  · have hagenda : s.turnTaken.agenda = turns := congrArg Prod.snd hn
    exact ⟨_, step_platform (congrArg Prod.fst hn), reset_row, rfl, rfl, rfl, rfl, rfl, rfl, rfl, hagenda, rfl⟩
  · rw [step_driver hn, driverAnswers_start (s := { s with agenda := turns }) hp]

/-! The reset sequence, step by step. -/

/-- An answer FAIL to INIT or QUERY ends the sequence without panels (R263). -/
theorem driverAnswers_fail {s : State} (hp : s.phase = .resetSeq .initSent ∨ s.phase = .resetSeq .querySent) :
    s.driverAnswers .fail = s.resetFailed := by
  rcases hp with hp | hp <;> simp only [State.driverAnswers, hp]

section Step
variable {s : State} {turns : List Turn}

/-- The sequence begins with INIT (R262). -/
theorem step_sendInit (hp : s.phase = .resetSeq .start) (hn : s.nextTurn = (.fbc, turns)) :
    step s = .next (State.sendInit { s with agenda := turns }) := by
  rw [step_fbc hn]
  simp only [fbcTurn, hp]

/-- An OK to INIT is followed by QUERY (R262). -/
theorem step_sendQuery (hp : s.phase = .resetSeq .initSent) (hn : s.nextTurn = (.driver .ok, turns)) :
    step s = .next (State.sendQuery { s with agenda := turns }) := by
  rw [step_driver hn]
  simp only [State.driverAnswers, hp]

/-- A count answers QUERY (R265). -/
theorem step_latchCount {n : BitVec 32} (hp : s.phase = .resetSeq .querySent)
    (hn : s.nextTurn = (.driver (.count n), turns)) :
    step s = .next (State.latchCount n.toNat { s with agenda := turns }) := by
  rw [step_driver hn]
  simp only [State.driverAnswers, hp]

/-- A turn of the FBC with a request outstanding is a wait (R186, R267). -/
theorem step_fbc_awaitsDriver (hp : s.phase.AwaitsDriver) (hn : s.nextTurn = (.fbc, turns)) :
    step s = .next { s with agenda := turns } :=
  (step_fbc hn).trans (fbcTurn_awaitsDriver (s := { s with agenda := turns }) hp)

end Step

/-- Settles O11: INIT, the wait for its answer, QUERY, the wait for its answer. -/
theorem resetSendsInitThenQuery : Obligations.ResetSendsInitThenQuery :=
  ⟨fun _ _ hp hn => ⟨_, step_sendInit hp hn, rfl, rfl, ⟨rfl, rfl, rfl, rfl⟩, rfl, rfl, rfl, rfl⟩,
    fun _ _ hp hn => step_fbc_awaitsDriver (.inl hp) hn,
    fun _ _ hp hn => ⟨_, step_sendQuery hp hn, rfl, rfl, ⟨rfl, rfl, rfl, rfl⟩, rfl, rfl, rfl, rfl⟩,
    fun _ _ hp hn => step_fbc_awaitsDriver (.inr (.inl hp)) hn⟩

/-! The end of the reset sequence. -/

/-- Setting a flag leaves every other bit (R27). -/
theorem setFlag_other_bits (s : State) {f : Flag} {k : Nat} (hk : k ≠ f.bit) :
    (s.setFlag f).status.getLsbD k = s.status.getLsbD k := by
  rw [setFlag_bit, decide_eq_false hk, Bool.or_false]

/-- A failed sequence sets no other bit of STATUS than those of DRVERR and CFGERR (R263). -/
theorem resetFailed_other_bits (s : State) {k : Nat} (hdrverr : k ≠ 4) (hcfgerr : k ≠ 5) :
    s.resetFailed.status.getLsbD k = s.status.getLsbD k :=
  (setFlag_other_bits (s.setFlag .drverr) (f := .cfgerr) hcfgerr).trans (setFlag_other_bits s (f := .drverr) hdrverr)

/-- Settles O12: FAIL is followed by the end of the sequence, with the two flags and no panel. -/
theorem failedHandshakeLeavesNoPanels : Obligations.FailedHandshakeLeavesNoPanels := by
  intro s turns hp hn
  have hstep := step_driver hn
  rw [driverAnswers_fail (s := { s with agenda := turns }) hp] at hstep
  exact ⟨_, hstep, by simp [hasFlag_resetFailed], by simp [hasFlag_resetFailed],
    fun k h4 h5 => resetFailed_other_bits { s with agenda := turns } h4 h5, rfl, rfl, rfl, rfl, rfl, rfl, rfl, rfl, rfl⟩

/-- Settles O13: a legal count is latched, any other one is refused, and both end the sequence. -/
theorem queryCountIsLatched : Obligations.QueryCountIsLatched := by
  intro s n turns hp hn
  refine ⟨_, step_latchCount hp hn, ?_⟩
  rcases latchCount_cases n.toNat { s with agenda := turns } with ⟨hc, e⟩ | ⟨hc, e⟩ <;> rw [e]
  · exact ⟨rfl, fun _ => ⟨rfl, rfl⟩, fun hbad => by omega, rfl, rfl, rfl, rfl, rfl, rfl, rfl⟩
  · exact ⟨rfl, fun hgood => absurd hgood hc,
      fun _ => ⟨rfl, by simp [hasFlag_refuseCount], fun k hk => setFlag_other_bits _ (f := .cfgerr) hk⟩,
      rfl, rfl, rfl, rfl, rfl, rfl, rfl⟩

/-! What a move leaves unchanged, in the reset sequence and outside it. -/

/-- A word is accepted in IDLE only (R33). -/
theorem not_accepts_of_not_idle {s : State} (hp : s.phase ≠ .idle) (cw : CmdWord) (s' : State) : ¬ s.Accepts cw s' :=
  fun ha => hp ha.1

/-- A move out of the reset sequence ends in IDLE (R266). -/
theorem move_ends_reset {s t : State} {place : ResetStep} (m : Move s t) (hp : s.phase = .resetSeq place)
    (ht : ∀ place', t.phase ≠ .resetSeq place') : t.phase = .idle := by
  cases m with
  | accept ha => exact absurd ha (not_accepts_of_not_idle (by simp [hp]) _ _)
  | wait | offer => exact absurd hp (ht place)
  | sendInit | sendQuery | reset => exact absurd rfl (ht _)
  | sendRow _ _ hr => exact absurd (hp.symm.trans hr) (by simp)
  | resetFailed | latch | refuseCount | renderDone | renderAborted => rfl

/-- No word, legal or not, changes the panel count (R25). -/
theorem perform_pcount {cw : CmdWord} {s t : State} (h : perform cw s = .next t) : t.pcount = s.pcount := by
  cases hd : decode cw with
  | none =>
    rw [perform_illegal hd] at h
    cases h
    rfl
  | some i => exact exec_pcount (perform_decoded hd s ▸ h)

/-- A word accepted in IDLE leads to IDLE or RENDERING (R33). -/
theorem perform_not_resetSeq {s s' t : State} {cw : CmdWord} (ha : s.Accepts cw s') (h : perform cw s' = .next t)
    (place : ResetStep) : t.phase ≠ .resetSeq place := by
  obtain ⟨u, hstep, hphase⟩ := accepts_response ha
  rw [step_accepts ha, h] at hstep
  cases hstep
  rcases hphase with ⟨hidle, _⟩ | ⟨_, _, hrendering, _⟩
  · simp [hidle]
  · simp [hrendering]

/-- Outside the reset sequence a move other than a reset keeps the panel count and stays outside it (R266). -/
theorem move_outside_reset {s t : State} (m : Move s t) (hp : ∀ place, s.phase ≠ .resetSeq place)
    (hn : s.nextTurn.1 ≠ .platform) : t.pcount = s.pcount ∧ ∀ place, t.phase ≠ .resetSeq place := by
  cases m with
  | accept ha he => exact ⟨(perform_pcount he).trans ha.sameBuffer.pcount, perform_not_resetSeq ha he⟩
  | wait | offer => exact ⟨rfl, hp⟩
  | sendInit hr | sendQuery hr | latch _ hr | refuseCount _ hr => exact absurd hr (hp _)
  | resetFailed hr => exact hr.elim (absurd · (hp _)) (absurd · (hp _))
  | sendRow | renderDone | renderAborted => exact ⟨rfl, by simp⟩
  | reset hr => exact absurd hr hn

/-- Settles O16: the moves of the reset sequence end it in IDLE, and the moves after it leave the panel count. -/
theorem panelCountIsFixedBetweenResets : Obligations.PanelCountIsFixedBetweenResets :=
  ⟨fun _ _ _ hp ht h => move_ends_reset (move_of_step h) hp ht,
    fun _ _ hp hn h => move_outside_reset (move_of_step h) hp hn⟩

/-! What a move leaves unchanged while the port is not ready. -/

section NotReady
variable {s t : State} (m : Move s t) (hp : s.phase ≠ .idle) (hn : s.nextTurn.1 ≠ .platform)
include m hp hn

/-- The words offered wait, in order, the host adding to them at the end (R271). -/
theorem move_offered_prefix : s.offered <+: t.offered := by
  cases m with
  | accept ha => exact absurd ha (not_accepts_of_not_idle hp _ _)
  | offer cw => exact List.prefix_append _ _
  | reset hr => exact absurd hr hn
  | wait | sendInit | sendQuery | resetFailed | latch | refuseCount | sendRow | renderDone | renderAborted =>
    exact List.prefix_rfl

/-- No flag of a command is set, the four of them being the bits below 4 (R26, R271). -/
theorem move_command_flags {k : Nat} (hk : k < 4) : t.status.getLsbD k = s.status.getLsbD k := by
  cases m with
  | accept ha => exact absurd ha (not_accepts_of_not_idle hp _ _)
  | resetFailed => exact resetFailed_other_bits s.turnTaken (by omega) (by omega)
  | refuseCount =>
    have hbit : k ≠ Flag.cfgerr.bit := (hk.trans (by decide)).ne
    exact setFlag_other_bits s.turnTaken hbit
  | renderAborted => exact renderAborted_other_bits s.turnTaken (by omega)
  | reset hr => exact absurd hr hn
  | wait | offer | sendInit | sendQuery | latch | sendRow | renderDone => rfl

end NotReady

/-- Settles O15: outside IDLE no word is accepted, so none is performed, answered or rejected, and none leaves the port. -/
theorem offeredWordsWaitWhileNotReady : Obligations.OfferedWordsWaitWhileNotReady := by
  intro s t hp hn h
  have m := move_of_step h
  have hna := not_accepts_of_not_idle hp
  obtain ⟨hrows, hcursor, halign⟩ := (move_buffer m hn).resolve_right fun ⟨cw, s', _, ha, _⟩ => hna cw s' ha
  exact ⟨move_offered_prefix m hp hn, hrows, hcursor, halign, fun _ hr => move_silent m (by simp [hr]) hna,
    fun _ hk => move_command_flags m hp hn hk⟩

end Sys2Proof.Machine
end
